-- ==== Sys2Proof/Word.lean ====
section
/-! DEFINITION. The widths of the core's values (spec/00_scope.md R10): bytes, 16-bit values and 32-bit registers. -/

namespace Sys2Proof

/-- A frame byte, an address, a function code (R10). -/
abbrev Byte := BitVec 8

/-- The CRC, a register address, a count or value, a decoded register value (R10). -/
abbrev Half := BitVec 16

/-- A host-visible register and a command word (R10, R59). -/
abbrev Word := BitVec 32

end Sys2Proof
end

