-- ==== Sys2Proof/Config.lean ====
section
/-! DEFINITION. What is fixed for the hardware and is not state (spec/00_scope.md R9, spec/10_state.md R15), and the
values the spec leaves open: constants without a body, so that nothing can be proved of what they are. -/

namespace Sys2Proof

/-- The three named parameters of R9 (spec/93_implementation_defined.md U13 to U15), an argument of the operations that
depend on them. -/
structure Params where
  /-- P_RX_CAP: receive buffer bytes. -/
  rxCap : Nat
  /-- P_VAL_CAP: decoded value registers. -/
  valCap : Nat
  /-- P_VERIFY_MIN_LEN: the shortest frame the frame check accepts. -/
  verifyMinLen : Nat
deriving DecidableEq, Repr

/-- The legal ranges of R9. -/
abbrev Params.Legal (p : Params) : Prop :=
  (25 ≤ p.rxCap ∧ p.rxCap ≤ 256) ∧ (10 ≤ p.valCap ∧ p.valCap ≤ 32) ∧ (3 ≤ p.verifyMinLen ∧ p.verifyMinLen ≤ 8)

namespace Config

/-- The values this hardware takes (R9). Only the host's fixed names (exec, step, State.reset, decodeTableWord) take them; the
operations they call, whose names end in At where the two differ, have the parameters as an argument (log 10). -/
def hw : Params := { rxCap := 256, valCap := 16, verifyMinLen := 4 }

/-- CRC_POLY (R9). -/
def crcPoly : Half := 0xA001#16

/-- CRC_INIT (R9), also the reset value of CRC (R28). -/
def crcInit : Half := 0xFFFF#16

/-- The reset value of XFER_CHECKS (R9, R33). -/
def resetChecks : Byte := 10#8

/-- The reset value of XFER_DELAY (R9, R34). -/
def resetDelay : Half := 5#16

/-- The size of the host register window in bytes (R42). -/
def windowSize : Nat := 0x800

/-- P_BASE: where the window stands in the host's own address map. OPEN in the spec (R42, U12): a constant without a
body (log 9). -/
opaque pBase : Nat

/-- FREE VALUE (log 4): what RX[i] holds when it has not been written since the n-th reset. The spec: "one draw per byte at
reset; a read returns the drawn value until the byte is written" (U1, R39). -/
opaque rxDraw : Nat → Nat → Byte

/-- FREE VALUE (log 17): a script variable no statement has assigned (R72 states no value). -/
opaque scriptUnset : Nat → Nat

/-- FREE VALUE (log 18): a script difference a − b with a < b (R72 gives variables the naturals and states no result). -/
opaque scriptUnderflow : Nat → Nat → Nat

/-- FREE VALUE (log 24): the 32-bit value that `wr` writes of a script value of 2^32 or more (R72 gives values the naturals,
R44 gives an access 32 bits, and no rule states what is written). -/
opaque scriptWide : Nat → Word

end Config

end Sys2Proof
end

