-- ==== Sys2Proof/Syntax.lean ====
section
/-! DEFINITION. The six commands of spec/opcode_table.json (spec/30_encoding.md R60, R70). -/

namespace Sys2Proof

/-- A command, with the operand the word itself carries (IMM8, R61). The other operands are registers. -/
inductive Instr where
  /-- CRC_INIT (R77). -/
  | crcInit
  /-- CRC_BYTE b (R78). -/
  | crcByte (b : Byte)
  /-- BUILD (R82). -/
  | build
  /-- VERIFY (R84). -/
  | verify
  /-- XFER (R93). -/
  | xfer
  /-- DECODE n (R85). -/
  | decode (n : Byte)
deriving DecidableEq, Repr

end Sys2Proof
end

