-- ==== Sys2Proof/WellFormed.lean ====
section
/-! DEFINITION. Which commands have a legal word (spec/30_encoding.md R61, R68). -/

namespace Sys2Proof

/-- R61: every IMM8 is legal for CRC_BYTE; DECODE takes a count from 1 to P_VAL_CAP; the others carry no operand. -/
def Instr.wf (p : Params) : Instr → Bool
  | .crcInit => true
  | .crcByte _ => true
  | .build => true
  | .verify => true
  | .xfer => true
  | .decode n => decide (1 ≤ n.toNat ∧ n.toNat ≤ p.valCap)

end Sys2Proof
end

