-- ==== Sys2Proof/Decode.lean ====
section
/-! DEFINITION. The command word: fields, decoder (total, every refusal named) and encoder (spec/30_encoding.md R59 to
R61, R68 to R70, R74). -/

namespace Sys2Proof

/-- Why a word is illegal: the alternatives of R68. -/
inductive DecodeError where
  /-- OP is 0x0 or 0x7 to 0xF. -/
  | reservedOp
  /-- w[7:4] is not 0. -/
  | rsv0NotZero
  /-- w[31:16] is not 0. -/
  | rsv1NotZero
  /-- IMM8 is not 0 in a command without an operand. -/
  | imm8NotZero
  /-- DECODE with a count of 0 or above P_VAL_CAP. -/
  | countOutOfRange
deriving DecidableEq, Repr

/-- Bits [3:0] (R59). -/
def fieldOp (w : Word) : BitVec 4 := w.extractLsb' 0 4

/-- Bits [7:4], reserved (R59). -/
def fieldRsv0 (w : Word) : BitVec 4 := w.extractLsb' 4 4

/-- Bits [15:8] (R59, R61). -/
def fieldImm8 (w : Word) : Byte := w.extractLsb' 8 8

/-- Bits [31:16], reserved (R59). -/
def fieldRsv1 (w : Word) : Half := w.extractLsb' 16 16

/-- A command without an operand: IMM8 must be 0x00 (R61, R68). -/
def withoutOperand (imm : Byte) (i : Instr) : Except DecodeError Instr :=
  if imm = 0#8 then .ok i else .error .imm8NotZero

/-- R60, R61 and R68 for a word whose reserved fields are 0. -/
def decodeOp (p : Params) (op : BitVec 4) (imm : Byte) : Except DecodeError Instr :=
  if op = 1#4 then withoutOperand imm .crcInit
  else if op = 2#4 then .ok (.crcByte imm)
  else if op = 3#4 then withoutOperand imm .build
  else if op = 4#4 then withoutOperand imm .verify
  else if op = 5#4 then withoutOperand imm .xfer
  else if op = 6#4 then
    if (Instr.decode imm).wf p then .ok (.decode imm) else .error .countOutOfRange
  else .error .reservedOp

/-- R74: "The core decodes every 32-bit word; decode is total." -/
def decode (p : Params) (w : Word) : Except DecodeError Instr :=
  if fieldRsv0 w ≠ 0#4 then .error .rsv0NotZero
  else if fieldRsv1 w ≠ 0#16 then .error .rsv1NotZero
  else decodeOp p (fieldOp w) (fieldImm8 w)

/-- OP of a command (R60). -/
def Instr.op : Instr → BitVec 4
  | .crcInit => 1#4
  | .crcByte _ => 2#4
  | .build => 3#4
  | .verify => 4#4
  | .xfer => 5#4
  | .decode _ => 6#4

/-- IMM8 of a command (R61). -/
def Instr.imm8 : Instr → Byte
  | .crcByte b => b
  | .decode n => n
  | .crcInit => 0#8
  | .build => 0#8
  | .verify => 0#8
  | .xfer => 0#8

/-- The word of R70: OP plus IMM8 · 0x100, the reserved fields 0. -/
def encode (i : Instr) : Word := i.op.setWidth 32 ||| (i.imm8.setWidth 32 <<< 8)

/-- A table word as the hardware takes it: the low nbits bits of w, the bits above them 0; none when it does not fit the
32 bits of a command word (R59). -/
def tableWord (nbits w : Nat) : Option Word :=
  let v := w % 2 ^ nbits
  if v < 2 ^ 32 then some (BitVec.ofNat 32 v) else none

/-- What this hardware's decoder reads from a word of spec/opcode_table.json (the host's interface). -/
def decodeTableWord (nbits w : Nat) : Option Instr :=
  match tableWord nbits w with
  | none => none
  | some v =>
    match decode Config.hw v with
    | .ok i => some i
    | .error _ => none

end Sys2Proof
end

