-- ==== Sys2Proof/Machine/Agents.lean ====
section
/-! DEFINITION. The agents' moves as plain data: host accesses (spec/20_memory.md), host programs (spec/30_encoding.md R72,
R73) and the events that say which agent moves next (spec/42_transport.md R91). -/

namespace Sys2Proof.Machine

/-- What a host access does: HostRead, or HostWrite of a value (R12). -/
inductive AccessKind where
  | read
  | write (v : Word)
deriving DecidableEq, Repr

/-- A host access: its width in bits, its byte offset in the window, and what it does. Accesses the core does not define
(R44) are data too: the machine refuses them. -/
structure Access where
  bits : Nat
  off : Nat
  kind : AccessKind
deriving DecidableEq, Repr

/-- A script variable; `<var>` of R72 is a name, here a number. -/
abbrev Var := Nat

/-- Expressions of host scripts (R72; the exclusive OR is the one of R11, used by program P2). DESIGN CHOICE (log 16): R72 lists
comparisons among what expressions use and gives one no numeric value, so they stand in the condition of an `if` alone. -/
inductive Expr where
  | const (n : Nat)
  | var (x : Var)
  | add (a b : Expr)
  | sub (a b : Expr)
  | xor (a b : Expr)
  /-- `e[lo + extra : lo]` (R11): hi is never below lo. -/
  | bits (e : Expr) (lo extra : Nat)
deriving DecidableEq, Repr

/-- The comparisons of R72. -/
inductive Cmp where
  | eq | ne | lt | le | gt | ge
deriving DecidableEq, Repr

/-- `<cond>` of R72. -/
structure Cond where
  cmp : Cmp
  left : Expr
  right : Expr
deriving DecidableEq, Repr

/-- `<reg>` of R72: a register name of R43, the index of TX, VAL and RX an expression, or a literal offset. -/
inductive RegName where
  | cmd | status | crc | reqAddr | reqFunc | reqReg | reqVal | xferChecks | xferDelay | rxLen | valCount
  | tx (i : Expr)
  | val (i : Expr)
  | rx (i : Expr)
  | offset (n : Nat)
deriving DecidableEq, Repr

/-- A label: one the script names, or the fresh label of the `poll` on a given line (R73). -/
inductive Label where
  | user (n : Nat)
  | poll (line : Nat)
deriving DecidableEq, Repr

/-- The base forms of R72. -/
inductive Stmt where
  | wr (r : RegName) (e : Expr)
  | rd (r : RegName) (x : Var)
  | assign (x : Var) (e : Expr)
  | ifGoto (c : Cond) (l : Label)
  | label (l : Label)
deriving DecidableEq, Repr

/-- A script line: a base form or a pseudo-instruction of R73. -/
inductive Line where
  | base (s : Stmt)
  | command (i : Instr)
  | poll
  | setreq (a f r v : Expr)
  | loadrx (bs : List Expr)
  | clrrej
deriving DecidableEq, Repr

/-- The host's own state while it runs a script: the program, the statement it stands at, its variables (a list of
(variable, value) pairs, variables strictly rising). -/
structure HostAgent where
  program : List Stmt
  pc : Nat
  vars : List (Nat × Nat)
deriving DecidableEq, Repr

/-- One move of one agent (R91). -/
inductive Event where
  /-- The host accesses the window at an offset. -/
  | access (a : Access)
  /-- The host accesses an address of its own map (R42, P_BASE). -/
  | bus (bits addr : Nat) (kind : AccessKind)
  /-- The host runs the next statement of its program (R72). -/
  | script
  /-- The core sequencer steps (R95 to R100). -/
  | core
  /-- The environment appends a byte to `chan_in` (R92). -/
  | arrive (b : Byte)
  /-- The environment consumes the oldest transmitted byte it has not consumed (R91). -/
  | consume
  /-- The delay timebase ticks (R98). -/
  | tick
  /-- The reset input is asserted (R122); what `chan_in` then holds is the environment's own: "a model takes `chan_in` after
  reset as a draw" (R124; log 5). -/
  | assertReset (received : List Byte)
  /-- The reset input is released. -/
  | releaseReset
deriving DecidableEq, Repr, Inhabited

end Sys2Proof.Machine

namespace Sys2Proof.Config

/-- FREE VALUE (log 2): the n-th move made when the schedule of State names none. "Any enabled agent may step; the order is
free" (R91), and the received bytes are draws (R92). -/
opaque agentMove : Nat → Machine.Event

end Sys2Proof.Config
end

