-- ==== Sys2Proof/Machine/State.lean ====
section
/-! DEFINITION. The machine's state: every register, buffer and hidden counter of spec/10_state.md, the channel of
spec/42_transport.md R92, the reset input (spec/70_reset_and_hazards.md R122), the host agent (spec/30_encoding.md R72) and
the model's own schedule; the reasons a step can stop; the state after reset. -/

namespace Sys2Proof.Machine

/-- The error codes of spec/60_exceptions.md R108 that are ever produced. -/
inductive ErrCode where
  | ok | illegalCmd | timeout | rxOverflow | lenShort | crcMismatch
deriving DecidableEq, Repr

/-- The fields of STATUS (R19 to R27). The reserved bits read 0 and are no state. -/
structure Status where
  busy : Bool
  done : Bool
  valid : Bool
  timeout : Bool
  ovf : Bool
  hdrMatch : Bool
  rejected : Bool
  err : ErrCode
deriving DecidableEq, Repr

/-- The sequencer states (R40, R94). -/
inductive Fsm where
  | idle
  | tx (i : Fin 8)
  | check
  | sleep
  | drain
deriving DecidableEq, Repr

/-- A byte memory: (index, byte) pairs, indexes strictly rising; an index not listed has not been written. -/
abbrev Memory := List Host.Cell

structure State where
  /-- STATUS (R19). -/
  status : Status
  /-- CRC (R28). -/
  crc : Half
  /-- REQ_ADDR (R29). -/
  reqAddr : Byte
  /-- REQ_FUNC (R30). -/
  reqFunc : Byte
  /-- REQ_REG (R31). -/
  reqReg : Half
  /-- REQ_VAL (R32). -/
  reqVal : Half
  /-- XFER_CHECKS (R33). -/
  xferChecks : Byte
  /-- XFER_DELAY (R34). -/
  xferDelay : Half
  /-- RX_LEN (R35). -/
  rxLen : BitVec 9
  /-- VAL_COUNT (R36). -/
  valCount : BitVec 6
  /-- TX[0..7] (R37). -/
  tx : Vector Byte 8
  /-- VAL[0..P_VAL_CAP-1] (R38); its length is the parameter (log 23). -/
  val : List Half
  /-- RX (R39): the bytes written since reset; an unwritten one is a draw (log 4). -/
  rx : Memory
  /-- The sequencer (R40). -/
  fsm : Fsm
  /-- Checks done in the current wait loop (R40). -/
  k : Byte
  /-- Ticks remaining in the current sleep (R40). -/
  d : Half
  /-- `chan_in`: received bytes not yet read, oldest first (R92). -/
  chanIn : List Byte
  /-- `chan_out`: the bytes handed to ChanWrite, in order (R92). -/
  chanOut : List Byte
  /-- How many bytes of `chan_out` the environment has consumed (R91; log 6). -/
  chanTaken : Nat
  /-- The level of the reset input (R122; log 7). -/
  resetLine : Bool
  /-- The MODEL's own: how many resets there have been, the counter of the free value Config.rxDraw (log 4). -/
  epoch : Nat
  /-- The host agent and its program (R72; log 16). -/
  host : HostAgent
  /-- The MODEL's own: the values host reads have returned, oldest first (log 8). -/
  readLog : List Word
  /-- The MODEL's own: the agents' moves to come, oldest first (R91, R116; log 1). -/
  schedule : List Event
  /-- The MODEL's own: the counter of the free value Config.agentMove (log 2). -/
  moves : Nat
deriving DecidableEq, Repr

/-- The core has no faults: "no traps, exceptions or faults in the processor sense" (R107), "`fault` (not used: the core has
no traps)" (spec/93_implementation_defined.md). No constructor, so that no step can answer one. -/
inductive Fault : Type
deriving DecidableEq, Repr

/-- Why a step has no meaning. Every one of them is safe: the model stops where hardware may go on. -/
inductive Refusal where
  /-- An arm of exec without a meaning yet. Raised by no arm of this model. Safe. -/
  | notModelled (mnemonic : String)
  /-- A host access that is not an aligned 32-bit access at an offset in the window (R44, R113, U4). Raised by a host access. Safe. -/
  | undefinedAccess
  /-- A host access while reset is asserted (R122, U5). Raised by a host access. Safe. -/
  | accessDuringReset
  /-- A host access to an address of the host's map below P_BASE (R42; log 9). Raised by a bus access. Safe. -/
  | outsideWindow
  /-- A script names TX, VAL or RX with an index R43 does not have (log 19). Raised by a script's wr or rd. Safe. -/
  | scriptNoSuchRegister
  /-- A script goes to a label it does not have (log 19). Raised by a script's if. Safe. -/
  | scriptNoSuchLabel
deriving DecidableEq, Repr

/-- STATUS = 0x00000000 (R41). -/
def Status.reset : Status :=
  { busy := false, done := false, valid := false, timeout := false, ovf := false, hdrMatch := false, rejected := false,
    err := .ok }

/-- The machine right after reset, for a core with these parameters: the table of R41; the channel, the host and the model's
own fields as log 5, log 16 and log 1 say. -/
def State.resetAt (p : Params) : State :=
  { status := Status.reset
    crc := Config.crcInit
    reqAddr := 0#8
    reqFunc := 0#8
    reqReg := 0#16
    reqVal := 0#16
    xferChecks := Config.resetChecks
    xferDelay := Config.resetDelay
    rxLen := 0#9
    valCount := 0#6
    tx := Vector.replicate 8 0#8
    val := List.replicate p.valCap 0#16
    rx := []
    fsm := .idle
    k := 0#8
    d := 0#16
    chanIn := []
    chanOut := []
    chanTaken := 0
    resetLine := false
    epoch := 0
    host := { program := [], pc := 0, vars := [] }
    readLog := []
    schedule := []
    moves := 0 }

/-- This hardware right after reset. -/
def State.reset : State := State.resetAt Config.hw

end Sys2Proof.Machine
end

