-- ==== Sys2Proof/Machine/Ops.lean ====
section
/-! DEFINITION. The named operations over State: byte memory, acceptance, completion and refusal of commands
(spec/60_exceptions.md R109 to R112), the reset input (spec/70_reset_and_hazards.md R122), the serial channel
(spec/42_transport.md R90). The core takes no exception and returns from none (R107, R118): `complete`, `reject` and
`illegalCommand` are what it has in their place. -/

namespace Sys2Proof.Machine

/-! ### Lists of (key, value) pairs, keys strictly rising -/

/-- The value at a key, if one is listed. -/
def sparseRead {α : Type} : List (Nat × α) → Nat → Option α
  | [], _ => none
  | (a, v) :: m, i => if a = i then some v else sparseRead m i

/-- Writes a value at a key, keeping the keys strictly rising. -/
def sparseWrite {α : Type} : List (Nat × α) → Nat → α → List (Nat × α)
  | [], i, v => [(i, v)]
  | (a, w) :: m, i, v =>
    if i < a then (i, v) :: (a, w) :: m
    else if i = a then (i, v) :: m
    else (a, w) :: sparseWrite m i v

/-- Keys strictly rising: equal contents are equal lists. -/
abbrev SparseWf {α : Type} (m : List (Nat × α)) : Prop := (m.map Prod.fst).Pairwise (· < ·)

/-- The byte at an index, if it has been written. -/
def Memory.read (m : Memory) (i : Nat) : Option Byte := sparseRead m i

/-- Writes one byte. -/
def Memory.write (m : Memory) (i : Nat) (b : Byte) : Memory := sparseWrite m i b

/-- The canonical form of RX: indexes strictly rising, all below the capacity. An unlisted index holds no known value
(R39), so no listed one equals what it reads as. -/
abbrev Memory.Wf (cap : Nat) (m : Memory) : Prop := SparseWf m ∧ ∀ c ∈ m, c.1 < cap

/-! ### RX and VAL -/

/-- RX[i] as any reader sees it: the byte written, else the byte drawn for it at the last reset (R39, U1; log 4). -/
def rxByte (s : State) (i : Nat) : Byte :=
  match s.rx.read i with
  | some b => b
  | none => Config.rxDraw s.epoch i

/-- RX[i] <- b. -/
def writeRx (i : Nat) (b : Byte) (s : State) : State := { s with rx := s.rx.write i b }

/-- VAL[j] (R38). -/
def valAt (s : State) (j : Nat) : Half := s.val.getD j 0#16

/-- VAL[0..N-1] <- vs, the others unchanged (R38, R85). -/
def writeVals (vs : List Half) (s : State) : State := { s with val := vs ++ s.val.drop vs.length }

/-! ### Commands: acceptance, completion, refusal -/

/-- `complete(code)` (R109). -/
def complete (code : ErrCode) (s : State) : State :=
  { s with status := { s.status with err := code, done := true, busy := false }, fsm := .idle }

/-- `reject()` (R111). -/
def reject (s : State) : State := { s with status := { s.status with rejected := true } }

/-- An illegal command word while idle (R110). -/
def illegalCommand (s : State) : State :=
  { s with status := { s.status with rejected := true, done := true, err := .illegalCmd } }

/-- A command is accepted: `STATUS.DONE <- 0` (R74, R21). -/
def accept (s : State) : State := { s with status := { s.status with done := false } }

/-- The frame every command runs in (R74, R115): refused while BUSY = 1; reported as illegal when its operand is; else
accepted and performed. It always answers a next state. -/
def command (legal : Bool) (body : State → State) (s : State) : Host.Outcome State Fault Refusal :=
  if s.status.busy then .next (reject s)
  else if legal then .next (body (accept s))
  else .next (illegalCommand s)

/-! ### The serial channel (R90) -/

/-- `ChanWrite(b)`: always accepted. -/
def chanWrite (b : Byte) (s : State) : State := { s with chanOut := s.chanOut ++ [b] }

/-- `ChanAvailable()`. -/
def chanAvailable (s : State) : Nat := s.chanIn.length

/-- The environment appends a byte to `chan_in` (R92). -/
def chanArrive (b : Byte) (s : State) : State := { s with chanIn := s.chanIn ++ [b] }

/-- The environment consumes the oldest transmitted byte it has not consumed, if there is one (R91; log 6). -/
def chanConsume (s : State) : State :=
  if s.chanTaken < s.chanOut.length then { s with chanTaken := s.chanTaken + 1 } else s

/-! ### The delay timebase (R98) -/

/-- A tick: `d <- d - 1` in SLEEP when d > 0, else no effect. -/
def tick (s : State) : State :=
  if s.fsm = .sleep ∧ s.d ≠ 0#16 then { s with d := s.d - 1#16 } else s

/-! ### The reset input (R122 to R124) -/

/-- Every piece of core state takes its value of R41; RX holds new draws; the channel, the host and the schedule stay. -/
def resetCore (p : Params) (s : State) : State :=
  { s with
    status := Status.reset
    crc := Config.crcInit
    reqAddr := 0#8
    reqFunc := 0#8
    reqReg := 0#16
    reqVal := 0#16
    xferChecks := Config.resetChecks
    xferDelay := Config.resetDelay
    rxLen := 0#9
    valCount := 0#6
    tx := Vector.replicate 8 0#8
    val := List.replicate p.valCap 0#16
    rx := []
    fsm := .idle
    k := 0#8
    d := 0#16
    epoch := s.epoch + 1 }

/-- The reset input is asserted, "at any time and in any state" (R122), with `received` the contents of `chan_in` after it
(R124; log 5). -/
def assertReset (p : Params) (received : List Byte) (s : State) : State :=
  { resetCore p s with chanIn := received, resetLine := true }

/-- The reset input is released (log 7). -/
def releaseReset (s : State) : State := { s with resetLine := false }

end Sys2Proof.Machine
end

