-- ==== Sys2Proof/Machine/Crc.lean ====
section
/-! DEFINITION. The CRC-16 generator (spec/40_crc.md): the step, the CRC of a byte sequence, CRC_INIT and CRC_BYTE. -/

namespace Sys2Proof.Machine

/-- One shift of R75: test of bit 0, right shift, exclusive OR with 0xA001 (PRESUMED by the spec's own mark, log 14). -/
def crcShift (c : Half) : Half :=
  if c.getLsbD 0 then (c >>> 1) ^^^ Config.crcPoly else c >>> 1

/-- `crc16_step(c, b)` (R75): the byte enters the low 8 bits, then 8 shifts. -/
def crc16Step (c : Half) (b : Byte) : Half := Nat.iterate crcShift 8 (c ^^^ b.setWidth 16)

/-- `crc16(S)` (R76). -/
def crc16 (bs : List Byte) : Half := bs.foldl crc16Step Config.crcInit

/-- `CRC <- c`. -/
def writeCrc (c : Half) (s : State) : State := { s with crc := c }

/-- CRC_INIT (R77). -/
def execCrcInit (s : State) : Host.Outcome State Fault Refusal :=
  command true (fun s => complete .ok (writeCrc Config.crcInit s)) s

/-- CRC_BYTE b (R78). -/
def execCrcByte (b : Byte) (s : State) : Host.Outcome State Fault Refusal :=
  command true (fun s => complete .ok (writeCrc (crc16Step s.crc b) s)) s

end Sys2Proof.Machine
end

