-- ==== Sys2Proof/Machine/Flags.lean ====
section
/-! DEFINITION. STATUS as the host reads it, its error codes, and every flag computation of the commands
(spec/10_state.md R19 to R27, spec/60_exceptions.md R108). -/

namespace Sys2Proof.Machine

/-- The 4-bit code of R108. -/
def ErrCode.code : ErrCode → BitVec 4
  | .ok => 0#4
  | .illegalCmd => 1#4
  | .timeout => 2#4
  | .rxOverflow => 3#4
  | .lenShort => 4#4
  | .crcMismatch => 5#4

/-- A flag at its bit of the STATUS word. -/
def flagBit (b : Bool) (n : Nat) : Word := if b then 1#32 <<< n else 0#32

/-- STATUS as a 32-bit word (R19): the reserved bits 7 and 31 to 12 read 0. -/
def Status.word (t : Status) : Word :=
  flagBit t.busy 0 ||| flagBit t.done 1 ||| flagBit t.valid 2 ||| flagBit t.timeout 3 ||| flagBit t.ovf 4 |||
    flagBit t.hdrMatch 5 ||| flagBit t.rejected 6 ||| (t.err.code.setWidth 32 <<< 8)

/-- A host write of v to STATUS: only bit 6 = 1 has an effect, it clears REJECTED (R19, R26, R47). -/
def writeStatus (v : Word) (s : State) : State :=
  if v.getLsbD 6 then { s with status := { s.status with rejected := false } } else s

/-- `STATUS.VALID <- (code = OK)` (R84, R85). -/
def setValid (code : ErrCode) (s : State) : State :=
  { s with status := { s.status with valid := decide (code = .ok) } }

/-- `STATUS.HDR_MATCH <- m` (R85). -/
def setHdrMatch (m : Bool) (s : State) : State := { s with status := { s.status with hdrMatch := m } }

/-- `TIMEOUT <- 1` (R97). -/
def setTimeout (s : State) : State := { s with status := { s.status with timeout := true } }

/-- `OVF <- 1` (R99). -/
def setOvf (s : State) : State := { s with status := { s.status with ovf := true } }

/-- The code an XFER that drained completes with: `OVF ? RX_OVERFLOW : OK` (R100). -/
def drainCode (t : Status) : ErrCode := if t.ovf then .rxOverflow else .ok

end Sys2Proof.Machine
end

