-- ==== Sys2Proof/Machine/Operands.lean ====
section
/-! DEFINITION. The operands commands take from registers and buffers, and the byte orders of frames
(spec/20_memory.md R52, R53, spec/30_encoding.md R61 to R67). -/

namespace Sys2Proof.Machine

/-- Bits [15:8]. -/
def hiByte (v : Half) : Byte := v.extractLsb' 8 8

/-- Bits [7:0]. -/
def loByte (v : Half) : Byte := v.extractLsb' 0 8

/-- `{hi, lo}` (R11). -/
def pair (hi lo : Byte) : Half := hi ++ lo

/-- The 6 header bytes of a request (R63): 16-bit fields high byte first (R52). -/
def requestHeader (s : State) : List Byte :=
  [s.reqAddr, s.reqFunc, hiByte s.reqReg, loByte s.reqReg, hiByte s.reqVal, loByte s.reqVal]

/-- RX[0..n-1]. -/
def rxBytes (s : State) (n : Nat) : List Byte := (List.range n).map (rxByte s)

/-- `be16(i)` over RX (R81). -/
def be16 (s : State) (i : Nat) : Half := pair (rxByte s i) (rxByte s (i + 1))

/-- Value j of a response (R81, R65). -/
def responseValue (s : State) (j : Nat) : Half := be16 s (3 + 2 * j)

/-- `5 + 2·N`: the length of a response that carries N values (R65). -/
def responseLength (n : Byte) : Nat := 5 + 2 * n.toNat

end Sys2Proof.Machine
end

