-- ==== Sys2Proof/Machine/Codec.lean ====
section
/-! DEFINITION. The frame codec (spec/41_frame_codec.md): the frame check, BUILD, VERIFY and DECODE. -/

namespace Sys2Proof.Machine

/-- `check_rx()` (R80): the code, and the recomputed CRC unless the frame is too short. -/
def checkRx (p : Params) (s : State) : ErrCode × Option Half :=
  let len := s.rxLen.toNat
  if len < p.verifyMinLen then (.lenShort, none)
  else
    let c := crc16 (rxBytes s (len - 2))
    if rxByte s (len - 2) = loByte c ∧ rxByte s (len - 1) = hiByte c then (.ok, some c)
    else (.crcMismatch, some c)

/-- `if c ≠ none: CRC <- c` (R84, R85). -/
def writeCrcIfAny (c : Option Half) (s : State) : State :=
  match c with
  | some c => writeCrc c s
  | none => s

/-- `hdr_match(N)` (R86). -/
def hdrMatch (n : Byte) (s : State) : Bool :=
  decide (3 ≤ s.rxLen.toNat ∧ rxByte s 0 = s.reqAddr ∧ rxByte s 1 = s.reqFunc ∧ (rxByte s 2).toNat = 2 * n.toNat)

/-- The request frame of R62 over a header: the header, then its CRC, low byte first. -/
def requestFrame (s : State) : Vector Byte 8 :=
  let c := crc16 (requestHeader s)
  #v[s.reqAddr, s.reqFunc, hiByte s.reqReg, loByte s.reqReg, hiByte s.reqVal, loByte s.reqVal, loByte c, hiByte c]

/-- BUILD's effect (R82). -/
def buildBody (s : State) : State :=
  complete .ok (writeCrc (crc16 (requestHeader s)) { s with tx := requestFrame s })

/-- VERIFY's effect (R84). -/
def verifyBody (p : Params) (s : State) : State :=
  let r := checkRx p s
  complete r.1 (setValid r.1 (writeCrcIfAny r.2 s))

/-- DECODE's effect once the frame check has answered `code` (R85): the values are written only when the frame is good and
long enough. -/
def decodeFinish (n : Byte) (code : ErrCode) (s : State) : State :=
  if code ≠ .ok then complete code s
  else if s.rxLen.toNat < responseLength n then complete .lenShort s
  else
    let vs := (List.range n.toNat).map (responseValue s)
    complete .ok { writeVals vs s with valCount := BitVec.ofNat 6 n.toNat }

/-- DECODE's effect (R85). -/
def decodeBody (p : Params) (n : Byte) (s : State) : State :=
  let r := checkRx p s
  decodeFinish n r.1 (setValid r.1 (writeCrcIfAny r.2 (setHdrMatch (hdrMatch n s) s)))

/-- BUILD (R82). -/
def execBuild (s : State) : Host.Outcome State Fault Refusal := command true buildBody s

/-- VERIFY (R84), for a core with these parameters. -/
def execVerifyAt (p : Params) (s : State) : Host.Outcome State Fault Refusal := command true (verifyBody p) s

/-- VERIFY on this hardware. -/
def execVerify (s : State) : Host.Outcome State Fault Refusal := execVerifyAt Config.hw s

/-- DECODE n (R85), for a core with these parameters; a count of 0 or above P_VAL_CAP is ILLEGAL_CMD, the first of its
errors. -/
def execDecodeAt (p : Params) (n : Byte) (s : State) : Host.Outcome State Fault Refusal :=
  command ((Instr.decode n).wf p) (decodeBody p n) s

/-- DECODE n on this hardware. -/
def execDecode (n : Byte) (s : State) : Host.Outcome State Fault Refusal := execDecodeAt Config.hw n s

end Sys2Proof.Machine
end

