-- ==== Sys2Proof/Machine/Transport.lean ====
section
/-! DEFINITION. The half-duplex transport (spec/42_transport.md): XFER's acceptance and the sequencer's steps. -/

namespace Sys2Proof.Machine

/-- Accept (R95): RX keeps its contents; k and d start from 0. -/
def xferBody (s : State) : State :=
  { s with
    status := { s.status with busy := true, done := false, valid := false, hdrMatch := false, timeout := false, ovf := false }
    rxLen := 0#9
    k := 0#8
    d := 0#16
    fsm := .tx 0 }

/-- XFER (R93): its acceptance; the rest of it is steps of the sequencer. -/
def execXfer (s : State) : Host.Outcome State Fault Refusal := command true xferBody s

/-- Send (R96), in TX(i). -/
def sendStep (i : Fin 8) (s : State) : State :=
  { chanWrite (s.tx[i]) s with fsm := if h : i.val < 7 then .tx ⟨i.val + 1, by omega⟩ else .check }

/-- Check (R97), in CHECK. -/
def checkStep (s : State) : State :=
  if s.k = s.xferChecks then complete .timeout (setTimeout s)
  else if 0 < chanAvailable s then { s with fsm := .drain }
  else { s with d := s.xferDelay, fsm := .sleep }

/-- Sleep (R98), in SLEEP: the core steps when d = 0; before that it waits for ticks. -/
def sleepStep (s : State) : State :=
  if s.d = 0#16 then { s with k := s.k + 1#8, fsm := .check } else s

/-- A drained byte is stored, or discarded when RX is full (R99). -/
def storeByte (p : Params) (b : Byte) (s : State) : State :=
  if s.rxLen.toNat < p.rxCap then { writeRx s.rxLen.toNat b s with rxLen := s.rxLen + 1#9 } else setOvf s

/-- Drain (R99) and completion (R100), in DRAIN. -/
def drainStep (p : Params) (s : State) : State :=
  match s.chanIn with
  | b :: rest => storeByte p b { s with chanIn := rest }
  | [] => complete (drainCode s.status) s

/-- A step of the core sequencer (R91, R94); in IDLE it has none. -/
def coreStep (p : Params) (s : State) : State :=
  match s.fsm with
  | .idle => s
  | .tx i => sendStep i s
  | .check => checkStep s
  | .sleep => sleepStep s
  | .drain => drainStep p s

end Sys2Proof.Machine
end

