-- ==== Sys2Proof/Machine/Dispatch.lean ====
section
/-! DEFINITION. One arm per command: the effect of submitting it (spec/30_encoding.md R74). -/

namespace Sys2Proof.Machine

def exec (i : Instr) (s : State) : Host.Outcome State Fault Refusal :=
  match i with
  | .crcInit => Sys2Proof.Machine.execCrcInit s
  | .crcByte b => Sys2Proof.Machine.execCrcByte b s
  | .build => Sys2Proof.Machine.execBuild s
  | .verify => Sys2Proof.Machine.execVerify s
  | .xfer => Sys2Proof.Machine.execXfer s
  | .decode n => Sys2Proof.Machine.execDecode n s

end Sys2Proof.Machine
end

