-- ==== Sys2Proof/Machine/Registers.lean ====
section
/-! DEFINITION. The host register window (spec/20_memory.md): the map, reads, writes, the refusals of BUSY = 1 and of
accesses the core does not define, and the submission of a command word (spec/30_encoding.md R74). -/

namespace Sys2Proof.Machine

/-- What stands at an offset of the window (R43). -/
inductive Reg where
  | cmd | status | crc | reqAddr | reqFunc | reqReg | reqVal | xferChecks | xferDelay | rxLen | valCount
  | tx (i : Fin 8)
  | val (j : Nat)
  | rx (i : Nat)
  | reserved
deriving DecidableEq, Repr

/-- The eleven registers below TX, and the reserved words after them (R43). -/
def lowReg (off : Nat) : Reg :=
  if off = 0x000 then .cmd
  else if off = 0x004 then .status
  else if off = 0x008 then .crc
  else if off = 0x00C then .reqAddr
  else if off = 0x010 then .reqFunc
  else if off = 0x014 then .reqReg
  else if off = 0x018 then .reqVal
  else if off = 0x01C then .xferChecks
  else if off = 0x020 then .xferDelay
  else if off = 0x024 then .rxLen
  else if off = 0x028 then .valCount
  else .reserved

/-- The register map of R43, at an aligned offset of the window. -/
def regAt (p : Params) (off : Nat) : Reg :=
  if off < 0x040 then lowReg off
  else if h : off < 0x060 then .tx ⟨(off - 0x040) / 4, by omega⟩
  else if off < 0x080 then .reserved
  else if off < 0x080 + 4 * p.valCap then .val ((off - 0x080) / 4)
  else if off < 0x400 then .reserved
  else if off < 0x400 + 4 * p.rxCap then .rx ((off - 0x400) / 4)
  else .reserved

/-- What HostRead returns (R47): the register zero-extended to 32 bits; CMD and reserved offsets read 0 (R18, R45). -/
def readReg (s : State) : Reg → Word
  | .cmd => 0#32
  | .status => s.status.word
  | .crc => s.crc.setWidth 32
  | .reqAddr => s.reqAddr.setWidth 32
  | .reqFunc => s.reqFunc.setWidth 32
  | .reqReg => s.reqReg.setWidth 32
  | .reqVal => s.reqVal.setWidth 32
  | .xferChecks => s.xferChecks.setWidth 32
  | .xferDelay => s.xferDelay.setWidth 32
  | .rxLen => s.rxLen.setWidth 32
  | .valCount => s.valCount.setWidth 32
  | .tx i => (s.tx[i]).setWidth 32
  | .val j => (valAt s j).setWidth 32
  | .rx i => (rxByte s i).setWidth 32
  | .reserved => 0#32

/-- A write to RX_LEN (R35): a length above P_RX_CAP is refused. -/
def writeRxLen (p : Params) (v : Word) (s : State) : State :=
  if (v.setWidth 9).toNat ≤ p.rxCap then { s with rxLen := v.setWidth 9 } else reject s

/-- A write to a RW register (R46, R47, R48): refused while BUSY = 1, else only the used bits are stored. -/
def writeRw (store : State → State) (s : State) : State :=
  if s.status.busy then reject s else store s

/-- A command on a core with these parameters; at this hardware's it is exec (Laws: `execAt_hw`). -/
def execAt (p : Params) (i : Instr) (s : State) : Host.Outcome State Fault Refusal :=
  match i with
  | .crcInit => execCrcInit s
  | .crcByte b => execCrcByte b s
  | .build => execBuild s
  | .verify => execVerifyAt p s
  | .xfer => execXfer s
  | .decode n => execDecodeAt p n s

/-- `submit(w)` (R74): the BUSY test, then legality, then the command. -/
def submit (p : Params) (w : Word) (s : State) : Host.Outcome State Fault Refusal :=
  if s.status.busy then .next (reject s)
  else
    match decode p w with
    | .error _ => .next (illegalCommand s)
    | .ok i => execAt p i s

/-- HostWrite by register (R47, R48). -/
def writeReg (p : Params) (r : Reg) (v : Word) (s : State) : Host.Outcome State Fault Refusal :=
  match r with
  | .cmd => submit p v s
  | .status => .next (writeStatus v s)
  | .crc => .next (writeRw (fun s => { s with crc := v.setWidth 16 }) s)
  | .reqAddr => .next (writeRw (fun s => { s with reqAddr := v.setWidth 8 }) s)
  | .reqFunc => .next (writeRw (fun s => { s with reqFunc := v.setWidth 8 }) s)
  | .reqReg => .next (writeRw (fun s => { s with reqReg := v.setWidth 16 }) s)
  | .reqVal => .next (writeRw (fun s => { s with reqVal := v.setWidth 16 }) s)
  | .xferChecks => .next (writeRw (fun s => { s with xferChecks := v.setWidth 8 }) s)
  | .xferDelay => .next (writeRw (fun s => { s with xferDelay := v.setWidth 16 }) s)
  | .rxLen => .next (writeRw (writeRxLen p v) s)
  | .rx i => .next (writeRw (writeRx i (v.setWidth 8)) s)
  | .valCount => .next s
  | .tx _ => .next s
  | .val _ => .next s
  | .reserved => .next s

/-- An access the core defines (R44): 32 bits, at a multiple of 4, in the window. -/
def Access.defined (a : Access) : Bool :=
  decide (a.bits = 32 ∧ a.off % 4 = 0 ∧ a.off < Config.windowSize)

/-- A host access (R44, R47, R122). A read changes nothing of the core (R50); its value goes to the host (log 8). -/
def hostAccess (p : Params) (a : Access) (s : State) : Host.Outcome State Fault Refusal :=
  if !a.defined then .refused .undefinedAccess
  else if s.resetLine then .refused .accessDuringReset
  else
    match a.kind with
    | .read => .next { s with readLog := s.readLog ++ [readReg s (regAt p a.off)] }
    | .write v => writeReg p (regAt p a.off) v s

/-- An access at an address of the host's own map: the window stands at P_BASE (R42; log 9). -/
def busAccess (p : Params) (bits addr : Nat) (kind : AccessKind) (s : State) : Host.Outcome State Fault Refusal :=
  if addr < Config.pBase then .refused .outsideWindow
  else hostAccess p { bits := bits, off := addr - Config.pBase, kind := kind } s

end Sys2Proof.Machine
end

