-- ==== Sys2Proof/Machine/Script.lean ====
section
/-! DEFINITION. The host agent running a host script (spec/30_encoding.md R72): expressions, conditions, register names and
what its next statement does. -/

namespace Sys2Proof.Machine

/-- A script variable; one never assigned is a free value (log 17). -/
def scriptVar (h : HostAgent) (x : Var) : Nat := (sparseRead h.vars x).getD (Config.scriptUnset x)

/-- An expression over the naturals (R72, R11); a difference below zero is a free value (log 18). -/
def Expr.eval (h : HostAgent) : Expr → Nat
  | .const n => n
  | .var x => scriptVar h x
  | .add a b => a.eval h + b.eval h
  | .sub a b =>
    if b.eval h ≤ a.eval h then a.eval h - b.eval h else Config.scriptUnderflow (a.eval h) (b.eval h)
  | .xor a b => a.eval h ^^^ b.eval h
  | .bits e lo extra => e.eval h / 2 ^ lo % 2 ^ (extra + 1)

/-- A condition (R72). -/
def Cond.holds (h : HostAgent) (c : Cond) : Bool :=
  match c.cmp with
  | .eq => decide (c.left.eval h = c.right.eval h)
  | .ne => decide (c.left.eval h ≠ c.right.eval h)
  | .lt => decide (c.left.eval h < c.right.eval h)
  | .le => decide (c.left.eval h ≤ c.right.eval h)
  | .gt => decide (c.right.eval h < c.left.eval h)
  | .ge => decide (c.right.eval h ≤ c.left.eval h)

/-- The offset of an element of a buffer, when R43 has one. -/
def elementOffset (base count i : Nat) : Option Nat := if i < count then some (base + 4 * i) else none

/-- `offset(reg)` (R72, R43); none for an index the map does not have (log 19). -/
def RegName.offsetOf (p : Params) (h : HostAgent) : RegName → Option Nat
  | .cmd => some 0x000
  | .status => some 0x004
  | .crc => some 0x008
  | .reqAddr => some 0x00C
  | .reqFunc => some 0x010
  | .reqReg => some 0x014
  | .reqVal => some 0x018
  | .xferChecks => some 0x01C
  | .xferDelay => some 0x020
  | .rxLen => some 0x024
  | .valCount => some 0x028
  | .tx i => elementOffset 0x040 8 (i.eval h)
  | .val i => elementOffset 0x080 p.valCap (i.eval h)
  | .rx i => elementOffset 0x400 p.rxCap (i.eval h)
  | .offset n => some n

/-- Where a label stands in a program. DESIGN CHOICE (log 16): a label that stands more than once means its first place; the
spec is silent on it. -/
def labelIndex (l : Label) : List Stmt → Option Nat
  | [] => none
  | st :: sts => if st = .label l then some 0 else (labelIndex l sts).map (· + 1)

/-- What the host does in its next step: an access whose value (of a read) goes to a variable, a change of its own state, or
nothing because its program has ended. -/
inductive HostAction where
  | access (a : Access) (dest : Option Var)
  | own (h : HostAgent)
  | ended
  | meaningless (r : Refusal)
deriving DecidableEq, Repr

/-- The 32 bits that `wr` writes of a script value; of one that does not fit they are a free value (log 24). -/
def scriptWord (n : Nat) : Word := if n < 2 ^ 32 then BitVec.ofNat 32 n else Config.scriptWide n

/-- `wr <reg>, <value>` (R72): HostWrite of the value at the register's offset. -/
def wrAction (p : Params) (h : HostAgent) (r : RegName) (e : Expr) : HostAction :=
  match r.offsetOf p h with
  | none => .meaningless .scriptNoSuchRegister
  | some off => .access { bits := 32, off := off, kind := .write (scriptWord (e.eval h)) } none

/-- `rd <reg> -> <var>` (R72). -/
def rdAction (p : Params) (h : HostAgent) (r : RegName) (x : Var) : HostAction :=
  match r.offsetOf p h with
  | none => .meaningless .scriptNoSuchRegister
  | some off => .access { bits := 32, off := off, kind := .read } (some x)

/-- `if <cond> goto <label>` (R72). -/
def ifAction (h : HostAgent) (c : Cond) (l : Label) : HostAction :=
  if c.holds h then
    match labelIndex l h.program with
    | some n => .own { h with pc := n }
    | none => .meaningless .scriptNoSuchLabel
  else .own { h with pc := h.pc + 1 }

/-- The action of the statement the host stands at (R72). -/
def hostAction (p : Params) (h : HostAgent) : HostAction :=
  match h.program[h.pc]? with
  | none => .ended
  | some (.wr r e) => wrAction p h r e
  | some (.rd r x) => rdAction p h r x
  | some (.assign x e) => .own { h with pc := h.pc + 1, vars := sparseWrite h.vars x (e.eval h) }
  | some (.ifGoto c l) => ifAction h c l
  | some (.label _) => .own { h with pc := h.pc + 1 }

/-- After its access the host goes to the next statement; a read's value is assigned to its variable (R72). -/
def hostAfterAccess (dest : Option Var) (s : State) : State :=
  match dest with
  | none => { s with host := { s.host with pc := s.host.pc + 1 } }
  | some x =>
    { s with
      host := { s.host with pc := s.host.pc + 1, vars := sparseWrite s.host.vars x (s.readLog.getLastD 0#32).toNat } }

/-- One step of the host script (log 16). -/
def scriptStep (p : Params) (s : State) : Host.Outcome State Fault Refusal :=
  match hostAction p s.host with
  | .access a dest =>
    match hostAccess p a s with
    | .next t => .next (hostAfterAccess dest t)
    | .fault r => .fault r
    | .refused r => .refused r
  | .own h => .next { s with host := h }
  | .ended => .next s
  | .meaningless r => .refused r

end Sys2Proof.Machine
end

