-- ==== Sys2Proof/Machine/Perform.lean ====
section
/-! DEFINITION. What one move of one agent does (spec/42_transport.md R91), which move is next, and how an instruction's word
is placed as the next move. -/

namespace Sys2Proof.Machine

/-- The move that is made next: the first of the schedule, or past its end a free one (R91, R116; log 1, log 2). -/
def nextEvent (s : State) : Event :=
  match s.schedule with
  | e :: _ => e
  | [] => Config.agentMove s.moves

/-- The state with that move taken off the schedule. -/
def popEvent (s : State) : State :=
  match s.schedule with
  | _ :: es => { s with schedule := es }
  | [] => { s with moves := s.moves + 1 }

/-- One move of one agent, for a core with these parameters. -/
def perform (p : Params) (e : Event) (s : State) : Host.Outcome State Fault Refusal :=
  match e with
  | .access a => hostAccess p a s
  | .bus bits addr kind => busAccess p bits addr kind s
  | .script => scriptStep p s
  | .core => .next (coreStep p s)
  | .arrive b => .next (chanArrive b s)
  | .consume => .next (chanConsume s)
  | .tick => .next (tick s)
  | .assertReset received => .next (assertReset p received s)
  | .releaseReset => .next (releaseReset s)

/-- The access a move makes, if it makes one: what the whole-machine rules speak of. -/
def accessAt (p : Params) (e : Event) (s : State) : Option Access :=
  match e with
  | .access a => some a
  | .bus bits addr kind => if addr < Config.pBase then none else some { bits := bits, off := addr - Config.pBase, kind := kind }
  | .script =>
    match hostAction p s.host with
    | .access a _ => some a
    | .own _ => none
    | .ended => none
    | .meaningless _ => none
  | .core => none
  | .arrive _ => none
  | .consume => none
  | .tick => none
  | .assertReset _ => none
  | .releaseReset => none

/-- That access on this hardware. -/
abbrev accessOf (e : Event) (s : State) : Option Access := accessAt Config.hw e s

/-- The host's write of a word to CMD (R18). -/
def cmdWrite (w : Word) : Access := { bits := 32, off := 0x000, kind := .write w }

end Sys2Proof.Machine
end

