-- ==== Sys2Proof/Machine/Step.lean ====
section
/-! DEFINITION. One step of the machine: the next move of the schedule (log 1). The core fetches nothing (R17): a command
runs when the host's write delivers its word (R58). -/

namespace Sys2Proof.Machine

/-- One step: one move of one agent (R91), for a core with these parameters. -/
def stepAt (p : Params) (s : State) : Host.Outcome State Fault Refusal := perform p (nextEvent s) (popEvent s)

/-- One step of this hardware. -/
def step (s : State) : Host.Outcome State Fault Refusal := stepAt Config.hw s

/-- The machine about to take a table word: the host's write of that word to CMD is the next move, the rest of the schedule
follows (log 15). A word that does not fit 32 bits is no command word and changes nothing. -/
def State.withFetchWord (s : State) (nbits w : Nat) : State :=
  match tableWord nbits w with
  | some v => { s with schedule := .access (cmdWrite v) :: s.schedule }
  | none => s

end Sys2Proof.Machine
end

