-- ==== Sys2Proof/Machine/Assembler.lean ====
section
/-! DEFINITION. The assembler text of the six commands (spec/30_encoding.md R71) and the expansion of host-script lines to
base forms (R73). -/

namespace Sys2Proof.Machine

/-- The value of a decimal digit. -/
def decDigit (c : Char) : Option Nat :=
  if '0'.toNat ≤ c.toNat ∧ c.toNat ≤ '9'.toNat then some (c.toNat - '0'.toNat) else none

/-- The value of a hexadecimal digit, already in lower case. -/
def hexDigit (c : Char) : Option Nat :=
  if 'a'.toNat ≤ c.toNat ∧ c.toNat ≤ 'f'.toNat then some (c.toNat - 'a'.toNat + 10) else decDigit c

/-- Digits of a base, most significant first; none on a character that is no digit. -/
def digits (digit : Char → Option Nat) (base : Nat) : List Char → Nat → Option Nat
  | [], acc => some acc
  | c :: cs, acc =>
    match digit c with
    | some v => digits digit base cs (acc * base + v)
    | none => none

/-- "Numbers are decimal or 0x-prefixed hexadecimal" (R71). -/
def parseNumber : List Char → Option Nat
  | '0' :: 'x' :: c :: cs => digits hexDigit 16 (c :: cs) 0
  | c :: cs => digits decDigit 10 (c :: cs) 0
  | [] => none

/-- An 8-bit operand; none for a number that does not fit IMM8. -/
def parseImm8 (cs : List Char) : Option Byte :=
  match parseNumber cs with
  | some n => if n < 256 then some (BitVec.ofNat 8 n) else none
  | none => none

/-- The words of a line: runs of characters other than spaces and tabs, in lower case ("case-insensitive", R71; log 21). -/
def lineWords : List Char → List Char → List (List Char)
  | [], [] => []
  | [], cur => [cur.reverse]
  | c :: cs, cur =>
    if c = ' ' ∨ c = '\t' then
      match cur with
      | [] => lineWords cs []
      | x :: xs => (x :: xs).reverse :: lineWords cs []
    else lineWords cs (c.toLower :: cur)

/-- The command of an assembler line (R71), its operand as written: `decode 17` assembles, to an illegal word (program P4). -/
def assembleWords : List (List Char) → Option Instr
  | [m] =>
    if m = ['c', 'r', 'c', '.', 'i', 'n', 'i', 't'] then some .crcInit
    else if m = ['b', 'u', 'i', 'l', 'd'] then some .build
    else if m = ['v', 'e', 'r', 'i', 'f', 'y'] then some .verify
    else if m = ['x', 'f', 'e', 'r'] then some .xfer
    else none
  | [m, n] =>
    if m = ['c', 'r', 'c', '.', 'b', 'y', 't', 'e'] then (parseImm8 n).map .crcByte
    else if m = ['d', 'e', 'c', 'o', 'd', 'e'] then (parseImm8 n).map .decode
    else none
  | _ => none

/-- "Each line assembles to the word of rule R70" (R71). -/
def assemble (line : List Char) : Option Word := (assembleWords (lineWords line [])).map encode

/-- The variable the `poll` expansion reads STATUS into, written `s` in R73 (log 20). -/
def pollVar : Var := 0

/-- RX[i] <- bytes from index i on, the middle of `loadrx` (R73). -/
def loadBytes : Nat → List Expr → List Stmt
  | _, [] => []
  | i, b :: bs => .wr (.rx (.const i)) b :: loadBytes (i + 1) bs

/-- The expansion of the line numbered `line` (R73). -/
def Line.expand (line : Nat) : Line → List Stmt
  | .base s => [s]
  | .command i => [.wr .cmd (.const (encode i).toNat)]
  | .poll =>
    [.label (.poll line), .rd .status pollVar,
      .ifGoto { cmp := .eq, left := .bits (.var pollVar) 0 0, right := .const 1 } (.poll line)]
  | .setreq a f r v => [.wr .reqAddr a, .wr .reqFunc f, .wr .reqReg r, .wr .reqVal v]
  | .loadrx bs => loadBytes 0 bs ++ [.wr .rxLen (.const bs.length)]
  | .clrrej => [.wr .status (.const 0x40)]

/-- A host script as base forms; a `poll` takes its fresh label from its line number. -/
def expandLines : Nat → List Line → List Stmt
  | _, [] => []
  | n, l :: ls => l.expand n ++ expandLines (n + 1) ls

end Sys2Proof.Machine
end

