-- ==== Sys2Proof/Safety.lean ====
section
/-! DEFINITION. What claims call a safe state: the invariant every step keeps, the state of a core in reset, the frame TX
always holds. -/

namespace Sys2Proof.Machine

/-- Every piece of core state at its value of spec/10_state.md R41; RX holds nothing known (R39). -/
structure CoreReset (s : State) : Prop where
  status : s.status = Status.reset
  crc : s.crc = 0xFFFF#16
  reqAddr : s.reqAddr = 0x00#8
  reqFunc : s.reqFunc = 0x00#8
  reqReg : s.reqReg = 0x0000#16
  reqVal : s.reqVal = 0x0000#16
  xferChecks : s.xferChecks = 10#8
  xferDelay : s.xferDelay = 5#16
  rxLen : s.rxLen = 0#9
  valCount : s.valCount = 0#6
  tx : s.tx = Vector.replicate 8 0x00#8
  val : s.val = List.replicate 16 0x0000#16
  rx : s.rx = []
  fsm : s.fsm = .idle
  k : s.k = 0#8
  d : s.d = 0#16

/-- XFER is between its acceptance and its first successful check. -/
def Fsm.waiting : Fsm → Bool
  | .idle => false
  | .tx _ => true
  | .check => true
  | .sleep => true
  | .drain => false

/-- The legal states of the machine (spec/10_state.md, spec/42_transport.md). -/
structure Inv (s : State) : Prop where
  /-- "BUSY = 1 exactly when fsm ≠ IDLE" (R20, R94). -/
  busy_iff : s.status.busy = true ↔ s.fsm ≠ .idle
  /-- There are P_VAL_CAP value registers (R38). -/
  val_length : s.val.length = Config.hw.valCap
  /-- RX keeps its canonical form below P_RX_CAP (R39). -/
  rx_wf : s.rx.Wf Config.hw.rxCap
  /-- RX_LEN ≤ P_RX_CAP (R35, R99). -/
  rxLen_le : s.rxLen.toNat ≤ Config.hw.rxCap
  /-- VAL_COUNT ≤ P_VAL_CAP (R36). -/
  valCount_le : s.valCount.toNat ≤ Config.hw.valCap
  /-- During an XFER: DONE, VALID, HDR_MATCH and TIMEOUT are 0 (R95, R49). -/
  busy_flags : s.status.busy = true →
    s.status.done = false ∧ s.status.valid = false ∧ s.status.hdrMatch = false ∧ s.status.timeout = false
  /-- Until the drain nothing has been received and nothing discarded (R95, R99). -/
  waiting_empty : s.fsm.waiting = true → s.rxLen = 0#9 ∧ s.status.ovf = false
  /-- While the frame is sent no check has been made (R95). -/
  sending_counts : ∀ i, s.fsm = .tx i → s.k = 0#8 ∧ s.d = 0#16
  /-- At a check, k checks of at most XFER_CHECKS have been made (R97). -/
  check_counts : s.fsm = .check → s.k.toNat ≤ s.xferChecks.toNat
  /-- In a sleep, the bound has not been reached and at most XFER_DELAY ticks remain (R97, R98). -/
  sleep_counts : s.fsm = .sleep → s.k.toNat < s.xferChecks.toNat ∧ s.d.toNat ≤ s.xferDelay.toNat
  /-- In the drain, a byte has been stored or is waiting (R100), and OVF means RX is full (R99). -/
  drain_counts : s.fsm = .drain →
    (s.rxLen = 0#9 → s.chanIn ≠ []) ∧ (s.status.ovf = true → s.rxLen.toNat = Config.hw.rxCap)
  /-- The environment consumes only what was handed to it (R91). -/
  taken_le : s.chanTaken ≤ s.chanOut.length
  /-- While reset is asserted the core holds its reset values (R122). -/
  in_reset : s.resetLine = true → CoreReset s

/-- "TX always holds a frame with a correct CRC or the reset zeros" (spec/92_eei_decisions.md D14; R37, R82): its first six
bytes' CRC, low byte first, is its last two. -/
def TxFrameGood (s : State) : Prop :=
  s.tx = Vector.replicate 8 0x00#8 ∨
    (s.tx[6] = loByte (crc16 (s.tx.toList.take 6)) ∧ s.tx[7] = hiByte (crc16 (s.tx.toList.take 6)))

end Sys2Proof.Machine
end

