-- ==== Sys2Proof/Certificates/Slice0/Obligations.lean ====
section
/-! DEFINITION. The statements for the provers. A step is written by the schedule it runs: `step (s.doing e es)` is the
machine in state s about to make the move e, the moves es to come after it. -/

namespace Sys2Proof.Machine

/-- The state with the move e next and the moves es after it. -/
abbrev State.doing (s : State) (e : Event) (es : List Event) : State := { s with schedule := e :: es }

/-- The state with the moves es to come. -/
abbrev State.todo (s : State) (es : List Event) : State := { s with schedule := es }

/-- The host's 32-bit write of v at an offset, as a move. -/
def hostWr (off : Nat) (v : Word) : Event := .access { bits := 32, off := off, kind := .write v }

/-- The host's 32-bit read at an offset, as a move. -/
def hostRd (off : Nat) : Event := .access { bits := 32, off := off, kind := .read }

/-- n steps, one after the other. -/
def runFor : Nat → State → Host.Outcome State Fault Refusal
  | 0, s => .next s
  | n + 1, s =>
    match step s with
    | .next t => runFor n t
    | .fault r => .fault r
    | .refused r => .refused r

/-- STATUS after `complete(code)` (R109). -/
def Status.finished (t : Status) (code : ErrCode) : Status := { t with err := code, done := true, busy := false }

/-- The trailing two bytes of the received frame are the CRC of the bytes before them, low byte first (R67, R80). -/
def ReceivedCrcGood (s : State) : Prop :=
  let c := crc16 ((List.range (s.rxLen.toNat - 2)).map (rxByte s))
  rxByte s (s.rxLen.toNat - 2) = c.extractLsb' 0 8 ∧ rxByte s (s.rxLen.toNat - 1) = c.extractLsb' 8 8

/-- The CRC recomputed over the received frame (R80). -/
def receivedCrc (s : State) : Half := crc16 ((List.range (s.rxLen.toNat - 2)).map (rxByte s))

/-- One shift of R75 on numbers. -/
def crcShiftNat (c : Nat) : Nat := if c % 2 = 1 then (c / 2) ^^^ 0xA001 else c / 2

/-- The step of R75 on numbers: the byte enters the low 8 bits, then 8 shifts. -/
def crcStepNat (c b : Nat) : Nat :=
  crcShiftNat (crcShiftNat (crcShiftNat (crcShiftNat (crcShiftNat (crcShiftNat (crcShiftNat (crcShiftNat (c ^^^ b))))))))

/-- Commands run one after the other. -/
def execAll : List Instr → State → Host.Outcome State Fault Refusal
  | [], s => .next s
  | i :: is, s =>
    match exec i s with
    | .next t => execAll is t
    | .fault r => .fault r
    | .refused r => .refused r

/-- The bytes of 16-bit values in a response, high byte first (R53, R65). -/
def valueBytes : List Half → List Byte
  | [] => []
  | v :: vs => v.extractLsb' 8 8 :: v.extractLsb' 0 8 :: valueBytes vs

/-- A frame: a body, then its CRC, low byte first (R67). -/
def withCrc (body : List Byte) : List Byte := body ++ [(crc16 body).extractLsb' 0 8, (crc16 body).extractLsb' 8 8]

/-- The moves of an XFER that receives nothing, one tick after the other: the transmission; `checks` times a check, `delay`
ticks and the end of the sleep; the step that finds the bound reached. -/
def quietXfer (checks delay : Nat) : List Event :=
  List.replicate 8 .core ++
    (List.replicate checks (.core :: (List.replicate delay .tick ++ [.core]))).flatten ++ [.core]

/-- 1 when the next step is a tick that a sleep counts (R98). -/
def tickWaited (s : State) : Nat := if nextEvent s = .tick ∧ s.fsm = .sleep ∧ s.d ≠ 0#16 then 1 else 0

/-- 1 when the next step is a check of the wait loop, a call of ChanAvailable (R97, R14). -/
def checkMade (s : State) : Nat := if nextEvent s = .core ∧ s.fsm = .check ∧ s.k ≠ s.xferChecks then 1 else 0

/-- The sum of a count over the first n steps. -/
def totalOver (count : State → Nat) : Nat → State → Nat
  | 0, _ => 0
  | n + 1, s =>
    match step s with
    | .next t => count s + totalOver count n t
    | .fault _ => count s
    | .refused _ => count s

/-- The character of a hexadecimal digit. -/
def hexChar (n : Nat) : Char := if n < 10 then Char.ofNat (48 + n) else Char.ofNat (87 + n)

/-- `0x` and two hexadecimal digits. -/
def hexByte (b : Byte) : List Char := ['0', 'x', hexChar (b.toNat / 16), hexChar (b.toNat % 16)]

/-- The next move asserts the reset input. -/
def resets (s : State) : Prop := ∃ l, nextEvent s = .assertReset l

end Sys2Proof.Machine

open Sys2Proof Sys2Proof.Machine

/-! ### Reset -/

/-- R41: the reset values; a byte of RX holds a draw, a free value of the model (log 4). -/
def Obligations.ResetLeavesTheTableValues : Prop :=
  CoreReset State.reset ∧ State.reset.status.word = 0x00000000#32 ∧
    ∀ i, i < 256 → State.reset.rx.read i = none ∧ rxByte State.reset i = Config.rxDraw State.reset.epoch i

/-- Reset at any time and in any state (R122); no host access has a meaning while it is asserted. The model's choices in it:
the reset input is a level in State (log 7), and of R124's draw the move carries what `chan_in` then holds, while `chan_out`
stays (log 5). -/
def Obligations.AssertedResetRestoresTheCore : Prop :=
  (∀ (s : State) (l : List Byte) (es : List Event), ∃ t, step (s.doing (.assertReset l) es) = .next t ∧ CoreReset t ∧
      t.resetLine = true ∧ (∀ i, rxByte t i = Config.rxDraw t.epoch i) ∧ t.chanIn = l ∧ t.chanOut = s.chanOut ∧ t.schedule = es) ∧
    ∀ (s : State) (a : Access) (es : List Event), s.resetLine = true → ∃ r, step (s.doing (.access a) es) = .refused r

/-- R125: after reset the core is IDLE and accepts a command at the first host write to CMD; how the reset input is released
is the model's choice (log 7). -/
def Obligations.ReleasedResetRunsTheFirstCommand : Prop :=
  ∀ (s : State) (i : Instr) (es : List Event), Inv s → s.resetLine = true → i.wf Config.hw = true →
    runFor 2 (s.doing .releaseReset (hostWr 0x000 (encode i) :: es)) =
      exec i { s with resetLine := false, schedule := es } ∧
    ∃ t, exec i { s with resetLine := false, schedule := es } = .next t ∧ t.status.rejected = false

/-! ### Invariants -/

/-- The invariant holds after reset, and so does the shape of TX. -/
def Obligations.InvariantHoldsAtReset : Prop := Inv State.reset ∧ TxFrameGood State.reset

/-- Every step of any agent keeps the invariant (R20, R35, R36, R39, R40, R94 to R100, R122). -/
def Obligations.StepKeepsTheInvariant : Prop := ∀ s t : State, Inv s → step s = .next t → Inv t

/-- Every step keeps TX a frame with its own CRC, or the reset zeros (R37, R82). -/
def Obligations.StepKeepsTheTxFrame : Prop := ∀ s t : State, TxFrameGood s → step s = .next t → TxFrameGood t

/-! ### The command word -/

/-- The decoder gives back every well-formed command, for every P_VAL_CAP. -/
def Obligations.DecodeOfEncodeIsTheCommand : Prop :=
  ∀ (p : Params) (i : Instr), i.wf p = true → decode p (encode i) = .ok i

/-- The legal command words are exactly the patterns of R70, which the spec marks as derived from R59 to R61. -/
def Obligations.LegalWordsAreThePatterns : Prop :=
  ∀ (p : Params) (w : Word),
    (decode p w = .ok .crcInit ↔ w = 0x00000001#32) ∧
    (∀ b : Byte, decode p w = .ok (.crcByte b) ↔ w.toNat = 0x00000002 + b.toNat * 0x100) ∧
    (decode p w = .ok .build ↔ w = 0x00000003#32) ∧
    (decode p w = .ok .verify ↔ w = 0x00000004#32) ∧
    (decode p w = .ok .xfer ↔ w = 0x00000005#32) ∧
    ∀ n : Byte, decode p w = .ok (.decode n) ↔
      w.toNat = 0x00000006 + n.toNat * 0x100 ∧ 1 ≤ n.toNat ∧ n.toNat ≤ p.valCap

/-- R68 and R110: which words are illegal, and what an idle core does with one. -/
def Obligations.IllegalWordsAreReported : Prop :=
  (∀ (p : Params) (w : Word), (∃ e, decode p w = .error e) ↔
      (w.toNat % 16 = 0 ∨ 7 ≤ w.toNat % 16) ∨ w.toNat / 16 % 16 ≠ 0 ∨ w.toNat / 65536 ≠ 0 ∨
        ((w.toNat % 16 = 1 ∨ w.toNat % 16 = 3 ∨ w.toNat % 16 = 4 ∨ w.toNat % 16 = 5) ∧ w.toNat / 256 % 256 ≠ 0) ∨
        (w.toNat % 16 = 6 ∧ (w.toNat / 256 % 256 = 0 ∨ p.valCap < w.toNat / 256 % 256))) ∧
    ∀ (s : State) (w : Word) (e : DecodeError) (es : List Event), decode Config.hw w = .error e →
      s.status.busy = false → s.resetLine = false →
      step (s.doing (hostWr 0x000 w) es) =
        .next { s.todo es with status := { s.status with rejected := true, done := true, err := .illegalCmd } }

/-- The words of spec/95_test_vectors.md 2.2 decode to what they stand for. -/
def Obligations.SpecWordsDecode : Prop :=
  decode Config.hw 0x00000001#32 = .ok .crcInit ∧ decode Config.hw 0x0000FF02#32 = .ok (.crcByte 0xFF#8) ∧
    decode Config.hw 0x00000003#32 = .ok .build ∧ decode Config.hw 0x00000004#32 = .ok .verify ∧
    decode Config.hw 0x00000005#32 = .ok .xfer ∧ decode Config.hw 0x00000106#32 = .ok (.decode 1#8) ∧
    decode Config.hw 0x00001006#32 = .ok (.decode 16#8) ∧ decode Config.hw 0x00000000#32 = .error .reservedOp

/-- A step runs the decoded command (the move comes from the model's schedule, log 1 and log 15): when the host's write of
its word to CMD is the next move, an idle core outside reset performs exec of it, with that move taken off the schedule;
this is all a step adds. -/
def Obligations.StepRunsTheDecodedCommand : Prop :=
  ∀ (s : State) (w : Word) (i : Instr) (es : List Event), decode Config.hw w = .ok i → s.status.busy = false →
    s.resetLine = false → step (s.doing (hostWr 0x000 w) es) = exec i (s.todo es)

/-! ### Host accesses -/

/-- R42: an address of the host's map is P_BASE plus the offset, P_BASE an open constant (log 9). -/
def Obligations.BusAccessIsTheWindowAccess : Prop :=
  ∀ (s : State) (a : Access) (es : List Event),
    step (s.doing (.bus a.bits (Config.pBase + a.off) a.kind) es) = step (s.doing (.access a) es)

/-- R112, R111, R48: while BUSY = 1 a write to CMD or to a RW register only sets REJECTED; a write to STATUS is performed;
a write to a RO or reserved offset is ignored. -/
def Obligations.BusyWritesAreRefused : Prop :=
  ∀ (s : State) (v : Word) (es : List Event), s.status.busy = true → s.resetLine = false →
    (∀ off, off ∈ [0x000, 0x008, 0x00C, 0x010, 0x014, 0x018, 0x01C, 0x020, 0x024] ∨ (∃ i, i < 256 ∧ off = 0x400 + 4 * i) →
      step (s.doing (hostWr off v) es) = .next { s.todo es with status := { s.status with rejected := true } }) ∧
    step (s.doing (hostWr 0x004 v) es) =
      .next (if v.getLsbD 6 then { s.todo es with status := { s.status with rejected := false } } else s.todo es) ∧
    ∀ off, 0x028 ≤ off → off < 0x400 → off % 4 = 0 → step (s.doing (hostWr off v) es) = .next (s.todo es)

/-- R46, R47, R35: what a host write stores while the core is idle. A write to RX[i] changes that byte alone. -/
def Obligations.IdleWriteStoresTheUsedBits : Prop :=
  ∀ (s : State) (v : Word) (es : List Event), s.status.busy = false → s.resetLine = false →
    step (s.doing (hostWr 0x008 v) es) = .next { s.todo es with crc := v.extractLsb' 0 16 } ∧
    step (s.doing (hostWr 0x00C v) es) = .next { s.todo es with reqAddr := v.extractLsb' 0 8 } ∧
    step (s.doing (hostWr 0x010 v) es) = .next { s.todo es with reqFunc := v.extractLsb' 0 8 } ∧
    step (s.doing (hostWr 0x014 v) es) = .next { s.todo es with reqReg := v.extractLsb' 0 16 } ∧
    step (s.doing (hostWr 0x018 v) es) = .next { s.todo es with reqVal := v.extractLsb' 0 16 } ∧
    step (s.doing (hostWr 0x01C v) es) = .next { s.todo es with xferChecks := v.extractLsb' 0 8 } ∧
    step (s.doing (hostWr 0x020 v) es) = .next { s.todo es with xferDelay := v.extractLsb' 0 16 } ∧
    (v.toNat % 512 ≤ 256 →
      step (s.doing (hostWr 0x024 v) es) = .next { s.todo es with rxLen := v.extractLsb' 0 9 }) ∧
    (256 < v.toNat % 512 →
      step (s.doing (hostWr 0x024 v) es) = .next { s.todo es with status := { s.status with rejected := true } }) ∧
    (∀ i, i < 256 → ∃ t, step (s.doing (hostWr (0x400 + 4 * i) v) es) = .next t ∧ rxByte t i = v.extractLsb' 0 8 ∧
      (∀ j, j ≠ i → rxByte t j = rxByte s j) ∧ t = { s.todo es with rx := t.rx }) ∧
    ∀ off, 0x028 ≤ off → off < 0x400 → off % 4 = 0 → step (s.doing (hostWr off v) es) = .next (s.todo es)

/-- R43, R47, R49, R50: what a host read returns (to the model's readLog, log 8), idle or busy; it changes nothing of the
core. -/
def Obligations.HostReadReturnsTheRegister : Prop :=
  ∀ (s : State) (es : List Event), s.resetLine = false →
    let returns (off : Nat) (v : Word) : Prop :=
      step (s.doing (hostRd off) es) = .next { s.todo es with readLog := s.readLog ++ [v] }
    returns 0x000 0#32 ∧ returns 0x004 s.status.word ∧ returns 0x008 (s.crc.setWidth 32) ∧
    returns 0x00C (s.reqAddr.setWidth 32) ∧ returns 0x010 (s.reqFunc.setWidth 32) ∧
    returns 0x014 (s.reqReg.setWidth 32) ∧ returns 0x018 (s.reqVal.setWidth 32) ∧
    returns 0x01C (s.xferChecks.setWidth 32) ∧ returns 0x020 (s.xferDelay.setWidth 32) ∧
    returns 0x024 (s.rxLen.setWidth 32) ∧ returns 0x028 (s.valCount.setWidth 32) ∧
    (∀ i : Fin 8, returns (0x040 + 4 * i.val) ((s.tx[i]).setWidth 32)) ∧
    (∀ j, j < 16 → returns (0x080 + 4 * j) ((valAt s j).setWidth 32)) ∧
    (∀ i, i < 256 → returns (0x400 + 4 * i) ((rxByte s i).setWidth 32)) ∧
    ∀ off, (0x02C ≤ off ∧ off < 0x040) ∨ (0x060 ≤ off ∧ off < 0x080) ∨ (0x0C0 ≤ off ∧ off < 0x400) → off % 4 = 0 →
      returns off 0#32

/-- The fields of STATUS at their bits (R19), ERR with the numbers R27 gives its codes, the reserved bits 0, all 0 at reset; a
host read returns that word (R47), which the model keeps in its readLog (log 8), and a host write to STATUS clears REJECTED when
its bit 6 is set and does nothing else, BUSY or not. -/
def Obligations.StatusWordLayout : Prop :=
  (∀ t : Status,
      t.word.getLsbD 0 = t.busy ∧ t.word.getLsbD 1 = t.done ∧ t.word.getLsbD 2 = t.valid ∧ t.word.getLsbD 3 = t.timeout ∧
      t.word.getLsbD 4 = t.ovf ∧ t.word.getLsbD 5 = t.hdrMatch ∧ t.word.getLsbD 6 = t.rejected ∧
      t.word.getLsbD 7 = false ∧ t.word.extractLsb' 8 4 = t.err.code ∧ t.word.extractLsb' 12 20 = 0#20) ∧
    (ErrCode.ok.code = 0#4 ∧ ErrCode.illegalCmd.code = 1#4 ∧ ErrCode.timeout.code = 2#4 ∧ ErrCode.rxOverflow.code = 3#4 ∧
      ErrCode.lenShort.code = 4#4 ∧ ErrCode.crcMismatch.code = 5#4) ∧
    State.reset.status.word = 0x00000000#32 ∧
    ∀ (s : State) (v : Word) (es : List Event), s.resetLine = false →
      step (s.doing (hostRd 0x004) es) = .next { s.todo es with readLog := s.readLog ++ [s.status.word] } ∧
      step (s.doing (hostWr 0x004 v) es) =
        .next (if v.getLsbD 6 then { s.todo es with status := { s.status with rejected := false } } else s.todo es)

/-- R113 (R44): an access of another width, at another alignment or beyond the window is refused. -/
def Obligations.UndefinedAccessIsRefused : Prop :=
  ∀ (s : State) (a : Access) (es : List Event), a.bits ≠ 32 ∨ a.off % 4 ≠ 0 ∨ 0x7FF < a.off →
    step (s.doing (.access a) es) = .refused .undefinedAccess

/-! ### The CRC generator -/

/-- R77: CRC_INIT when idle, when busy, and its word with an operand. -/
def Obligations.CrcInitResult : Prop :=
  (∀ s : State, s.status.busy = false →
      exec .crcInit s = .next { s with crc := 0xFFFF#16, status := s.status.finished .ok, fsm := .idle }) ∧
    (∀ s : State, s.status.busy = true →
      exec .crcInit s = .next { s with status := { s.status with rejected := true } }) ∧
    ∀ (s : State) (imm : Byte) (es : List Event), imm ≠ 0#8 → s.status.busy = false → s.resetLine = false →
      step (s.doing (hostWr 0x000 (0x00000001#32 ||| (imm.setWidth 32 <<< 8))) es) =
        .next { s.todo es with status := { s.status with rejected := true, done := true, err := .illegalCmd } }

/-- R78: the accumulator takes one step of the CRC. -/
def Obligations.CrcByteResult : Prop :=
  ∀ (s : State) (b : Byte), s.status.busy = false →
    exec (.crcByte b) s = .next { s with crc := crc16Step s.crc b, status := s.status.finished .ok, fsm := .idle }

/-- The step of R75, bit by bit, on numbers: its bit order is general knowledge by the spec's own mark (log 14). -/
def Obligations.CrcStepIsEightShifts : Prop :=
  ∀ (c : Half) (b : Byte), (crc16Step c b).toNat = crcStepNat c.toNat b.toNat

/-- R78's corner case, which the spec marks as derived: CRC_INIT and then a CRC_BYTE for each byte leave the CRC of the
sequence; crc16 folds the step from 0xFFFF (R76, general knowledge by the spec's own mark, log 14). -/
def Obligations.CrcCommandsComputeTheCrc : Prop :=
  crc16 [] = 0xFFFF#16 ∧ (∀ (bs : List Byte) (b : Byte), crc16 (bs ++ [b]) = crc16Step (crc16 bs) b) ∧
    ∀ (s : State) (bs : List Byte), s.status.busy = false →
      execAll (.crcInit :: bs.map .crcByte) s =
        .next { s with crc := crc16 bs, status := s.status.finished .ok, fsm := .idle }

/-- R78's corner case, general knowledge by the spec's own mark: feeding the two CRC bytes of a frame after its body leaves
0. -/
def Obligations.CrcOfAFrameWithItsCrcIsZero : Prop := ∀ body : List Byte, crc16 (withCrc body) = 0x0000#16

/-! ### The frame codec -/

/-- R82: the frame BUILD leaves in TX, or its refusal. -/
def Obligations.BuildResult : Prop :=
  (∀ s : State, s.status.busy = true → exec .build s = .next { s with status := { s.status with rejected := true } }) ∧
  ∀ s : State, s.status.busy = false →
    let h : List Byte := [s.reqAddr, s.reqFunc, s.reqReg.extractLsb' 8 8, s.reqReg.extractLsb' 0 8,
      s.reqVal.extractLsb' 8 8, s.reqVal.extractLsb' 0 8]
    ∃ t, exec .build s = .next t ∧ t.tx.toList = withCrc h ∧
      t = { s with tx := t.tx, crc := crc16 h, status := s.status.finished .ok, fsm := .idle }

/-- R79: BUILD, VERIFY and DECODE never read the CRC register: with another value in it they do the same, and CRC itself
ends the same or is written by neither. -/
def Obligations.CodecIgnoresTheCrcRegister : Prop :=
  ∀ (i : Instr) (s : State) (c : Half), (i = .build ∨ i = .verify ∨ ∃ n, i = .decode n) →
    ∃ t u, exec i s = .next t ∧ exec i { s with crc := c } = .next u ∧ u = { t with crc := u.crc } ∧
      (u.crc = t.crc ∨ (t.crc = s.crc ∧ u.crc = c))

/-- R84 (R80): the three outcomes of VERIFY. -/
def Obligations.VerifyResult : Prop :=
  ∀ s : State, s.status.busy = false →
    (s.rxLen.toNat < 4 →
      exec .verify s = .next { s with status := { s.status.finished .lenShort with valid := false }, fsm := .idle }) ∧
    (4 ≤ s.rxLen.toNat → ReceivedCrcGood s →
      exec .verify s =
        .next { s with crc := receivedCrc s, status := { s.status.finished .ok with valid := true }, fsm := .idle }) ∧
    (4 ≤ s.rxLen.toNat → ¬ReceivedCrcGood s →
      exec .verify s =
        .next { s with crc := receivedCrc s, status := { s.status.finished .crcMismatch with valid := false }, fsm := .idle })

/-- R86: HDR_MATCH, and that it and the registers it compares touch nothing else of DECODE's results. -/
def Obligations.DecodeReportsTheHeaderMatch : Prop :=
  ∀ (s : State) (n : Byte), s.status.busy = false → 1 ≤ n.toNat → n.toNat ≤ 16 →
    ∃ t, exec (.decode n) s = .next t ∧
      (t.status.hdrMatch = true ↔ 3 ≤ s.rxLen.toNat ∧ rxByte s 0 = s.reqAddr ∧ rxByte s 1 = s.reqFunc ∧
        (rxByte s 2).toNat = 2 * n.toNat) ∧
      ∀ a f : Byte, ∃ u, exec (.decode n) { s with reqAddr := a, reqFunc := f } = .next u ∧
        u.status.valid = t.status.valid ∧ u.status.err = t.status.err ∧ u.val = t.val ∧ u.valCount = t.valCount

/-- R85: DECODE's errors in the order tested; on every one VAL and VAL_COUNT keep their values. -/
def Obligations.DecodeErrorsKeepTheValues : Prop :=
  ∀ (s : State) (n : Byte), s.status.busy = false →
    (n.toNat = 0 ∨ 16 < n.toNat → exec (.decode n) s =
      .next { s with status := { s.status with rejected := true, done := true, err := .illegalCmd } }) ∧
    (1 ≤ n.toNat → n.toNat ≤ 16 → ∃ t, exec (.decode n) s = .next t ∧
      (s.rxLen.toNat < 4 → t = { s with
        status := { s.status.finished .lenShort with valid := false, hdrMatch := t.status.hdrMatch }, fsm := .idle }) ∧
      (4 ≤ s.rxLen.toNat → ¬ReceivedCrcGood s → t = { s with
        crc := receivedCrc s
        status := { s.status.finished .crcMismatch with valid := false, hdrMatch := t.status.hdrMatch }, fsm := .idle }) ∧
      (4 ≤ s.rxLen.toNat → ReceivedCrcGood s → s.rxLen.toNat < 5 + 2 * n.toNat → t = { s with
        crc := receivedCrc s
        status := { s.status.finished .lenShort with valid := true, hdrMatch := t.status.hdrMatch }, fsm := .idle }))

/-- R85, R81, R53: DECODE of a good frame that is long enough. -/
def Obligations.DecodeWritesTheValues : Prop :=
  ∀ (s : State) (n : Byte), s.status.busy = false → 1 ≤ n.toNat → n.toNat ≤ 16 → ReceivedCrcGood s →
    5 + 2 * n.toNat ≤ s.rxLen.toNat →
    ∃ t, exec (.decode n) s = .next t ∧
      (∀ j, j < n.toNat → valAt t j = rxByte s (3 + 2 * j) ++ rxByte s (4 + 2 * j)) ∧
      (∀ j, n.toNat ≤ j → valAt t j = valAt s j) ∧ t.valCount.toNat = n.toNat ∧
      t = { s with
        val := t.val, valCount := t.valCount, crc := receivedCrc s
        status := { s.status.finished .ok with valid := true, hdrMatch := t.status.hdrMatch }, fsm := .idle }

/-- The source's round trip (spec/95_test_vectors.md S3): decoding a response built from register values recovers exactly
those values. -/
def Obligations.DecodeRecoversTheEncodedValues : Prop :=
  ∀ (s : State) (a f c : Byte) (vs : List Half), s.status.busy = false → 1 ≤ vs.length → vs.length ≤ 16 →
    s.rxLen.toNat = 5 + 2 * vs.length →
    (∀ i b, (withCrc (a :: f :: c :: valueBytes vs))[i]? = some b → rxByte s i = b) →
    ∃ t, exec (.decode (BitVec.ofNat 8 vs.length)) s = .next t ∧ t.status.valid = true ∧ t.status.err = .ok ∧
      t.valCount.toNat = vs.length ∧ t.val.take vs.length = vs ∧ t.val.drop vs.length = s.val.drop vs.length

/-! ### The transport -/

/-- R95: the acceptance of an XFER; its operands cannot change until it ends. -/
def Obligations.XferIsAccepted : Prop :=
  (∀ s : State, s.status.busy = false → exec .xfer s = .next { s with
      status := { s.status with busy := true, done := false, valid := false, hdrMatch := false, timeout := false, ovf := false }
      rxLen := 0#9, k := 0#8, d := 0#16, fsm := .tx 0 }) ∧
    ∀ s t : State, s.status.busy = true → step s = .next t → ¬resets s →
      t.xferChecks = s.xferChecks ∧ t.xferDelay = s.xferDelay

/-- R96: one send step; eight of them hand the frame over and go on to the first check. -/
def Obligations.SendStepsHandOverTheFrame : Prop :=
  (∀ (s : State) (i : Fin 8) (es : List Event), s.fsm = .tx i → ∃ t, step (s.doing .core es) = .next t ∧
      (∀ h : i.val < 7, t.fsm = .tx ⟨i.val + 1, by omega⟩) ∧ (i.val = 7 → t.fsm = .check) ∧
      t = { s.todo es with chanOut := s.chanOut ++ [s.tx[i]], fsm := t.fsm }) ∧
    ∀ (s : State) (es : List Event), s.fsm = .tx 0 →
      runFor 8 (s.todo (List.replicate 8 .core ++ es)) =
        .next { s.todo es with chanOut := s.chanOut ++ s.tx.toList, fsm := .check }

/-- R97: one check step. -/
def Obligations.CheckStepResult : Prop :=
  ∀ (s : State) (es : List Event), s.fsm = .check →
    (s.k = s.xferChecks → step (s.doing .core es) =
      .next { s.todo es with status := { s.status.finished .timeout with timeout := true }, fsm := .idle }) ∧
    (s.k ≠ s.xferChecks → s.chanIn ≠ [] → step (s.doing .core es) = .next { s.todo es with fsm := .drain }) ∧
    (s.k ≠ s.xferChecks → s.chanIn = [] → step (s.doing .core es) =
      .next { s.todo es with d := s.xferDelay, fsm := .sleep }) ∧
    (Inv s → s.rxLen = 0#9)

/-- R98: ticks and the end of a sleep. -/
def Obligations.SleepCountsTicks : Prop :=
  (∀ (s : State) (es : List Event), s.fsm = .sleep → s.d ≠ 0#16 → ∃ t, step (s.doing .tick es) = .next t ∧
      t.d.toNat + 1 = s.d.toNat ∧ t = { s.todo es with d := t.d }) ∧
    (∀ (s : State) (es : List Event), s.fsm ≠ .sleep ∨ s.d = 0#16 → step (s.doing .tick es) = .next (s.todo es)) ∧
    ∀ (s : State) (es : List Event), s.fsm = .sleep → s.d = 0#16 →
      step (s.doing .core es) = .next { s.todo es with k := s.k + 1#8, fsm := .check }

/-- R99: a drain step stores the oldest byte, or discards it when RX is full; with no byte left the XFER completes. -/
def Obligations.DrainStoresOrDiscards : Prop :=
  ∀ (s : State) (es : List Event), s.fsm = .drain →
    (∀ b rest, s.chanIn = b :: rest → s.rxLen.toNat < 256 → ∃ t, step (s.doing .core es) = .next t ∧
      rxByte t s.rxLen.toNat = b ∧ (∀ j, j ≠ s.rxLen.toNat → rxByte t j = rxByte s j) ∧
      t.rxLen.toNat = s.rxLen.toNat + 1 ∧ t = { s.todo es with chanIn := rest, rx := t.rx, rxLen := t.rxLen }) ∧
    (∀ b rest, s.chanIn = b :: rest → 256 ≤ s.rxLen.toNat → step (s.doing .core es) =
      .next { s.todo es with chanIn := rest, status := { s.status with ovf := true } }) ∧
    (s.chanIn = [] → step (s.doing .core es) = .next { s.todo es with
      status := s.status.finished (if s.status.ovf then .rxOverflow else .ok), fsm := .idle })

/-- R99, R100, R108: a whole drain: the bytes that have arrived go to RX in order, the first 256 of them; any more are
discarded and reported. -/
def Obligations.DrainCollectsTheArrivedBytes : Prop :=
  ∀ (s : State) (es : List Event), s.fsm = .drain → s.rxLen = 0#9 → s.status.ovf = false →
    ∃ t, runFor (s.chanIn.length + 1) (s.todo (List.replicate (s.chanIn.length + 1) .core ++ es)) = .next t ∧
      t.rxLen.toNat = min s.chanIn.length 256 ∧
      (∀ i b, i < 256 → s.chanIn[i]? = some b → rxByte t i = b) ∧
      (∀ i, s.chanIn.length ≤ i → rxByte t i = rxByte s i) ∧
      t.status = { s.status.finished (if 256 < s.chanIn.length then .rxOverflow else .ok) with
        ovf := decide (256 < s.chanIn.length) } ∧
      t = { s.todo es with chanIn := [], rx := t.rx, rxLen := t.rxLen, status := t.status, fsm := .idle }

/-- R101 on the schedule in which nothing arrives: the frame is sent, the bound is waited out, RX_LEN stays 0. -/
def Obligations.QuietXferTimesOut : Prop :=
  ∀ (s : State) (es : List Event), Inv s → s.fsm = .tx 0 → s.chanIn = [] →
    let moves := quietXfer s.xferChecks.toNat s.xferDelay.toNat
    runFor moves.length (s.todo (moves ++ es)) = .next { s.todo es with
      chanOut := s.chanOut ++ s.tx.toList, k := s.xferChecks, fsm := .idle
      status := { s.status.finished .timeout with timeout := true } } ∧ s.rxLen = 0#9

/-- R101, which the spec marks as derived from R97 and R98: on every schedule, an XFER that reaches the timeout has made
exactly XFER_CHECKS checks and waited exactly XFER_CHECKS · XFER_DELAY ticks; no XFER makes more checks. -/
def Obligations.TimeoutComesAfterExactlyTheBound : Prop :=
  ∀ (n : Nat) (s t : State), Inv s → s.fsm = .tx 0 → runFor n s = .next t →
    (∀ m u, m < n → runFor m s = .next u → u.status.busy = true) →
    (t.status.timeout = true →
      totalOver checkMade n s = s.xferChecks.toNat ∧
      totalOver tickWaited n s = s.xferChecks.toNat * s.xferDelay.toNat) ∧
    totalOver checkMade n s ≤ s.xferChecks.toNat

/-- R106: while bytes keep arriving the drain goes on and BUSY stays 1, for any number of steps. -/
def Obligations.DrainMayNotEnd : Prop :=
  ∀ (n : Nat) (s : State) (b : Byte) (es : List Event), s.fsm = .drain → s.status.busy = true → s.chanIn ≠ [] →
    ∃ t, runFor (2 * n) (s.todo ((List.replicate n [.arrive b, .core]).flatten ++ es)) = .next t ∧
      t.status.busy = true ∧ t.fsm = .drain ∧ t.chanIn ≠ []

/-! ### Whole-machine rules -/

/-- R102: bytes are handed to the channel only by a send step, one at a time, from TX. -/
def Obligations.OnlySendStepsWriteTheChannel : Prop :=
  ∀ s t : State, step s = .next t → t.chanOut = s.chanOut ∨
    (nextEvent s = .core ∧ ∃ i, s.fsm = .tx i ∧ t.chanOut = s.chanOut ++ [s.tx[i]])

/-- R103, R90: bytes leave `chan_in` only at a drain step, the oldest first; they enter it at its end (what it holds after a
reset is the environment's own choice, R124, log 5). -/
def Obligations.OnlyDrainStepsReadTheChannel : Prop :=
  ∀ s t : State, step s = .next t → t.chanIn = s.chanIn ∨
    (∃ b, nextEvent s = .arrive b ∧ t.chanIn = s.chanIn ++ [b]) ∨
    (nextEvent s = .core ∧ s.fsm = .drain ∧ ∃ b, s.chanIn = b :: t.chanIn) ∨ resets s

/-- R26: REJECTED stays 1 until the host writes STATUS with bit 6 = 1 (or the core is reset). -/
def Obligations.RejectedIsSticky : Prop :=
  ∀ s t : State, step s = .next t → s.status.rejected = true → t.status.rejected = true ∨
    (∃ v, accessOf (nextEvent s) s = some { bits := 32, off := 0x004, kind := .write v } ∧ v.getLsbD 6 = true) ∨
    resets s

/-- R37: TX is written only by BUILD (and by reset). -/
def Obligations.TxIsWrittenOnlyByBuild : Prop :=
  ∀ s t : State, step s = .next t → t.tx = s.tx ∨
    (s.status.busy = false ∧ accessOf (nextEvent s) s = some (cmdWrite 0x00000003#32)) ∨ resets s

/-- R36, R38: VAL and VAL_COUNT are written only by a DECODE that succeeds (and by reset). -/
def Obligations.ValIsWrittenOnlyByDecode : Prop :=
  ∀ s t : State, step s = .next t → (t.val = s.val ∧ t.valCount = s.valCount) ∨
    (s.status.busy = false ∧ t.status.err = .ok ∧ ∃ n : Byte, 1 ≤ n.toNat ∧ n.toNat ≤ 16 ∧ t.valCount.toNat = n.toNat ∧
      accessOf (nextEvent s) s = some (cmdWrite (encode (.decode n)))) ∨ resets s

/-- R22 to R25: VALID, TIMEOUT, OVF and HDR_MATCH are written only by the commands named there (and by reset). -/
def Obligations.FlagsAreWrittenOnlyByTheirCommands : Prop :=
  ∀ s t : State, step s = .next t → ¬resets s →
    let runs (i : Instr) : Prop := accessOf (nextEvent s) s = some (cmdWrite (encode i)) ∧ s.status.busy = false
    (t.status.valid = s.status.valid ∨ runs .verify ∨ (∃ n, runs (.decode n)) ∨ (runs .xfer ∧ t.status.valid = false)) ∧
    (t.status.hdrMatch = s.status.hdrMatch ∨ (∃ n, runs (.decode n)) ∨ (runs .xfer ∧ t.status.hdrMatch = false)) ∧
    (t.status.timeout = s.status.timeout ∨ (runs .xfer ∧ t.status.timeout = false) ∨
      (nextEvent s = .core ∧ s.fsm = .check ∧ s.k = s.xferChecks ∧ t.status.timeout = true)) ∧
    (t.status.ovf = s.status.ovf ∨ (runs .xfer ∧ t.status.ovf = false) ∨
      (nextEvent s = .core ∧ s.fsm = .drain ∧ 256 ≤ s.rxLen.toNat ∧ t.status.ovf = true))

/-- R89, which the spec marks as derived from R80 and R82: verify(build(g)) is true for every request: BUILD, then TX copied
to RX by host writes, RX_LEN = 8, VERIFY. -/
def Obligations.VerifyAcceptsEveryBuiltFrame : Prop :=
  ∀ (s b : State) (es : List Event), s.status.busy = false → s.resetLine = false → exec .build s = .next b →
    let moves := hostWr 0x000 0x00000003#32 ::
      ((List.finRange 8).map (fun i => hostWr (0x400 + 4 * i.val) ((b.tx[i]).setWidth 32)) ++
        [hostWr 0x024 8#32, hostWr 0x000 0x00000004#32])
    ∃ t, runFor moves.length (s.todo (moves ++ es)) = .next t ∧ t.status.valid = true ∧ t.status.err = .ok

/-! ### Frames and completion -/

/-- What CRC_INIT and CRC_BYTE leave unchanged, in every state (R77, R78). -/
def Obligations.FrameOfTheCrcCommands : Prop :=
  ∀ (i : Instr) (s t : State), (i = .crcInit ∨ ∃ b, i = .crcByte b) → exec i s = .next t →
    t = { s with crc := t.crc, fsm := t.fsm
                 status := { s.status with done := t.status.done, rejected := t.status.rejected, err := t.status.err } } ∧
    (∀ j, rxByte t j = rxByte s j) ∧ (Inv s → t.fsm = s.fsm)

/-- What BUILD leaves unchanged, in every state (R82). -/
def Obligations.FrameOfBuild : Prop :=
  ∀ s t : State, exec .build s = .next t →
    t = { s with tx := t.tx, crc := t.crc, fsm := t.fsm
                 status := { s.status with done := t.status.done, rejected := t.status.rejected, err := t.status.err } } ∧
    (∀ j, rxByte t j = rxByte s j) ∧ (Inv s → t.fsm = s.fsm)

/-- What VERIFY and DECODE leave unchanged, in every state (R84, R85): VERIFY writes no value and no HDR_MATCH. -/
def Obligations.FrameOfVerifyAndDecode : Prop :=
  (∀ s t : State, exec .verify s = .next t →
    t = { s with crc := t.crc, fsm := t.fsm
                 status := { s.status with done := t.status.done, rejected := t.status.rejected, err := t.status.err
                                           valid := t.status.valid } } ∧
    (∀ j, rxByte t j = rxByte s j) ∧ (Inv s → t.fsm = s.fsm)) ∧
  ∀ (n : Byte) (s t : State), exec (.decode n) s = .next t →
    t = { s with crc := t.crc, fsm := t.fsm, val := t.val, valCount := t.valCount
                 status := { s.status with done := t.status.done, rejected := t.status.rejected, err := t.status.err
                                           valid := t.status.valid, hdrMatch := t.status.hdrMatch } } ∧
    (∀ j, rxByte t j = rxByte s j) ∧ (∀ j, n.toNat ≤ j → valAt t j = valAt s j) ∧ (Inv s → t.fsm = s.fsm)

/-- What XFER's acceptance leaves unchanged, in every state (R95): RX keeps its contents, ERR its value. -/
def Obligations.FrameOfXfer : Prop :=
  ∀ s t : State, exec .xfer s = .next t →
    t = { s with rxLen := t.rxLen, k := t.k, d := t.d, fsm := t.fsm
                 status := { t.status with err := s.status.err } } ∧
    (∀ j, rxByte t j = rxByte s j) ∧ (s.status.busy = true → t = { s with status := { s.status with rejected := true } }) ∧
    (s.status.busy = false → t.status.rejected = s.status.rejected)

/-- R107: no command stops the machine: in every state exec answers a next state; refused while BUSY = 1, and otherwise
completed at once, except an XFER, which BUSY = 1 shows in progress (R20). -/
def Obligations.EveryCommandAnswersANextState : Prop :=
  ∀ (i : Instr) (s : State), ∃ t, exec i s = .next t ∧
    (s.status.busy = true → t = { s with status := { s.status with rejected := true } }) ∧
    (s.status.busy = false → i ≠ .xfer → t.status.busy = false ∧ t.status.done = true) ∧
    (s.status.busy = false → i = .xfer → t.status.busy = true ∧ t.status.done = false)

/-- R107; which moves have no meaning is the model's choice (log 7, log 9, log 19): only a move of the host can be without
one; the core, the channel, the ticks and the reset input never stop the machine. -/
def Obligations.OnlyHostMovesAreRefused : Prop :=
  ∀ (s : State) (r : Refusal), step s = .refused r →
    (∃ a, nextEvent s = .access a) ∨ (∃ bits addr kind, nextEvent s = .bus bits addr kind) ∨ nextEvent s = .script

/-! ### Host programs -/

/-- R73: a command on a script line writes its word to CMD: the command runs, and the host goes on to its next statement (the
form of the host agent is the model's, log 16). -/
def Obligations.ScriptCommandLineRunsTheCommand : Prop :=
  ∀ (s : State) (i : Instr) (line : Nat) (es : List Event), i.wf Config.hw = true → s.status.busy = false →
    s.resetLine = false → s.host.program[s.host.pc]? = (Line.expand line (.command i)).head? →
    ∃ t, exec i (s.todo es) = .next t ∧
      step (s.doing .script es) = .next { t with host := { t.host with pc := s.host.pc + 1 } }

/-- R73, with the model's variable and label for `poll` (log 20): one round of it goes back to its label while BUSY = 1 and
past its end when BUSY = 0; it changes nothing of the core. -/
def Obligations.PollRepeatsWhileBusy : Prop :=
  ∀ (s : State) (before after : List Stmt) (line : Nat) (es : List Event), s.resetLine = false →
    s.host.program = before ++ Line.expand line .poll ++ after → .label (.poll line) ∉ before →
    s.host.pc = before.length →
    ∃ t, runFor 3 (s.todo (.script :: .script :: .script :: es)) = .next t ∧
      t.host.pc = (if s.status.busy then before.length else before.length + 3) ∧
      t = { s.todo es with host := t.host, readLog := s.readLog ++ [s.status.word] }

/-- R71: lines assemble to the words of R70, whatever the operand; the text's details are the model's choice (log 21). -/
def Obligations.AssembledLinesAreTheWords : Prop :=
  assemble ['c', 'r', 'c', '.', 'i', 'n', 'i', 't'] = some 0x00000001#32 ∧
    assemble ['B', 'u', 'i', 'l', 'd'] = some 0x00000003#32 ∧
    assemble ['v', 'e', 'r', 'i', 'f', 'y'] = some 0x00000004#32 ∧
    assemble ['x', 'f', 'e', 'r'] = some 0x00000005#32 ∧
    (∀ b : Byte, assemble (['c', 'r', 'c', '.', 'b', 'y', 't', 'e', ' '] ++ hexByte b) =
      some (BitVec.ofNat 32 (2 + b.toNat * 256))) ∧
    ∀ n : Byte, assemble (['d', 'e', 'c', 'o', 'd', 'e', ' '] ++ hexByte n) = some (BitVec.ofNat 32 (6 + n.toNat * 256))

/-! ### The parameters -/

/-- R9, R35, R68, R80, R99: on a core with any legal parameters, P_RX_CAP bounds RX_LEN and the drain, P_VAL_CAP the counts of
DECODE and P_VERIFY_MIN_LEN the frames VERIFY accepts; this hardware is that core at the values of R9. -/
def Obligations.ParametersBoundTheCommands : Prop :=
  (∀ (p : Params) (s : State) (es : List Event), p.Legal → s.status.busy = false →
    (∀ v : Word, s.resetLine = false → stepAt p (s.doing (hostWr 0x024 v) es) =
      .next (if v.toNat % 512 ≤ p.rxCap then { s.todo es with rxLen := v.extractLsb' 0 9 } else reject (s.todo es))) ∧
    (∀ n : Byte, n.toNat = 0 ∨ p.valCap < n.toNat → execAt p (.decode n) s =
      .next { s with status := { s.status with rejected := true, done := true, err := .illegalCmd } }) ∧
    ∃ t, execAt p .verify s = .next t ∧ (t.status.err = .lenShort ↔ s.rxLen.toNat < p.verifyMinLen)) ∧
  (∀ (p : Params) (s : State) (b : Byte) (rest : List Byte) (es : List Event), p.Legal → s.fsm = .drain →
    s.chanIn = b :: rest → p.rxCap ≤ s.rxLen.toNat → stepAt p (s.doing .core es) =
      .next { s.todo es with chanIn := rest, status := { s.status with ovf := true } }) ∧
  (∀ (i : Instr) (s : State), exec i s = execAt { rxCap := 256, valCap := 16, verifyMinLen := 4 } i s) ∧
  ∀ s : State, step s = stepAt { rxCap := 256, valCap := 16, verifyMinLen := 4 } s
end

