-- ==== Sys2Proof/Laws/Encoding.lean ====
section
/-! SUPPORT. The command word as a number: its fields and its encoding (spec/30_encoding.md R59, R70). -/

namespace Sys2Proof

theorem fieldOp_toNat (w : Word) : (fieldOp w).toNat = w.toNat % 16 := by
  simp [fieldOp, BitVec.extractLsb'_toNat]

theorem fieldRsv0_toNat (w : Word) : (fieldRsv0 w).toNat = w.toNat / 16 % 16 := by
  simp [fieldRsv0, BitVec.extractLsb'_toNat, Nat.shiftRight_eq_div_pow]

theorem fieldImm8_toNat (w : Word) : (fieldImm8 w).toNat = w.toNat / 256 % 256 := by
  simp [fieldImm8, BitVec.extractLsb'_toNat, Nat.shiftRight_eq_div_pow]

theorem fieldRsv1_toNat (w : Word) : (fieldRsv1 w).toNat = w.toNat / 65536 := by
  have h := w.isLt
  simp only [fieldRsv1, BitVec.extractLsb'_toNat, Nat.shiftRight_eq_div_pow]
  omega

/-- R70: the word of a command is OP + IMM8 · 0x100. -/
theorem word_toNat (o : BitVec 4) (b : Byte) :
    (o.setWidth 32 ||| (b.setWidth 32 <<< 8)).toNat = o.toNat + b.toNat * 256 := by
  have ho := o.isLt
  have hb := b.isLt
  have h : b.toNat <<< 8 ||| o.toNat = b.toNat <<< 8 + o.toNat :=
    (Nat.shiftLeft_add_eq_or_of_lt (by omega) _).symm
  rw [BitVec.toNat_or, BitVec.toNat_shiftLeft, BitVec.toNat_setWidth, BitVec.toNat_setWidth,
    Nat.mod_eq_of_lt (by omega : o.toNat < 2 ^ 32), Nat.mod_eq_of_lt (by omega : b.toNat < 2 ^ 32),
    Nat.mod_eq_of_lt (by rw [Nat.shiftLeft_eq]; omega), Nat.or_comm, h, Nat.shiftLeft_eq]
  omega

theorem encode_toNat (i : Instr) : (encode i).toNat = i.op.toNat + i.imm8.toNat * 256 := word_toNat _ _

end Sys2Proof
end

