-- ==== Sys2Proof/Laws/State.lean ====
section
/-! SUPPORT. One lemma per field per update of State: what each named operation leaves alone, and what it writes. -/

namespace Sys2Proof.Machine

@[simp] theorem hw_rxCap : Config.hw.rxCap = 256 := rfl
@[simp] theorem hw_valCap : Config.hw.valCap = 16 := rfl
@[simp] theorem hw_verifyMinLen : Config.hw.verifyMinLen = 4 := rfl

variable (s : State)

/-! ### accept -/

@[simp] theorem accept_crc : (accept s).crc = s.crc := rfl
@[simp] theorem accept_reqAddr : (accept s).reqAddr = s.reqAddr := rfl
@[simp] theorem accept_reqFunc : (accept s).reqFunc = s.reqFunc := rfl
@[simp] theorem accept_reqReg : (accept s).reqReg = s.reqReg := rfl
@[simp] theorem accept_reqVal : (accept s).reqVal = s.reqVal := rfl
@[simp] theorem accept_xferChecks : (accept s).xferChecks = s.xferChecks := rfl
@[simp] theorem accept_xferDelay : (accept s).xferDelay = s.xferDelay := rfl
@[simp] theorem accept_rxLen : (accept s).rxLen = s.rxLen := rfl
@[simp] theorem accept_valCount : (accept s).valCount = s.valCount := rfl
@[simp] theorem accept_tx : (accept s).tx = s.tx := rfl
@[simp] theorem accept_val : (accept s).val = s.val := rfl
@[simp] theorem accept_rx : (accept s).rx = s.rx := rfl
@[simp] theorem accept_fsm : (accept s).fsm = s.fsm := rfl
@[simp] theorem accept_k : (accept s).k = s.k := rfl
@[simp] theorem accept_d : (accept s).d = s.d := rfl
@[simp] theorem accept_chanIn : (accept s).chanIn = s.chanIn := rfl
@[simp] theorem accept_chanOut : (accept s).chanOut = s.chanOut := rfl
@[simp] theorem accept_chanTaken : (accept s).chanTaken = s.chanTaken := rfl
@[simp] theorem accept_resetLine : (accept s).resetLine = s.resetLine := rfl
@[simp] theorem accept_epoch : (accept s).epoch = s.epoch := rfl
@[simp] theorem accept_host : (accept s).host = s.host := rfl
@[simp] theorem accept_readLog : (accept s).readLog = s.readLog := rfl
@[simp] theorem accept_schedule : (accept s).schedule = s.schedule := rfl
@[simp] theorem accept_moves : (accept s).moves = s.moves := rfl

/-! ### reject -/

@[simp] theorem reject_crc : (reject s).crc = s.crc := rfl
@[simp] theorem reject_reqAddr : (reject s).reqAddr = s.reqAddr := rfl
@[simp] theorem reject_reqFunc : (reject s).reqFunc = s.reqFunc := rfl
@[simp] theorem reject_reqReg : (reject s).reqReg = s.reqReg := rfl
@[simp] theorem reject_reqVal : (reject s).reqVal = s.reqVal := rfl
@[simp] theorem reject_xferChecks : (reject s).xferChecks = s.xferChecks := rfl
@[simp] theorem reject_xferDelay : (reject s).xferDelay = s.xferDelay := rfl
@[simp] theorem reject_rxLen : (reject s).rxLen = s.rxLen := rfl
@[simp] theorem reject_valCount : (reject s).valCount = s.valCount := rfl
@[simp] theorem reject_tx : (reject s).tx = s.tx := rfl
@[simp] theorem reject_val : (reject s).val = s.val := rfl
@[simp] theorem reject_rx : (reject s).rx = s.rx := rfl
@[simp] theorem reject_fsm : (reject s).fsm = s.fsm := rfl
@[simp] theorem reject_k : (reject s).k = s.k := rfl
@[simp] theorem reject_d : (reject s).d = s.d := rfl
@[simp] theorem reject_chanIn : (reject s).chanIn = s.chanIn := rfl
@[simp] theorem reject_chanOut : (reject s).chanOut = s.chanOut := rfl
@[simp] theorem reject_chanTaken : (reject s).chanTaken = s.chanTaken := rfl
@[simp] theorem reject_resetLine : (reject s).resetLine = s.resetLine := rfl
@[simp] theorem reject_epoch : (reject s).epoch = s.epoch := rfl
@[simp] theorem reject_host : (reject s).host = s.host := rfl
@[simp] theorem reject_readLog : (reject s).readLog = s.readLog := rfl
@[simp] theorem reject_schedule : (reject s).schedule = s.schedule := rfl
@[simp] theorem reject_moves : (reject s).moves = s.moves := rfl

/-! ### illegalCommand -/

@[simp] theorem illegalCommand_crc : (illegalCommand s).crc = s.crc := rfl
@[simp] theorem illegalCommand_reqAddr : (illegalCommand s).reqAddr = s.reqAddr := rfl
@[simp] theorem illegalCommand_reqFunc : (illegalCommand s).reqFunc = s.reqFunc := rfl
@[simp] theorem illegalCommand_reqReg : (illegalCommand s).reqReg = s.reqReg := rfl
@[simp] theorem illegalCommand_reqVal : (illegalCommand s).reqVal = s.reqVal := rfl
@[simp] theorem illegalCommand_xferChecks : (illegalCommand s).xferChecks = s.xferChecks := rfl
@[simp] theorem illegalCommand_xferDelay : (illegalCommand s).xferDelay = s.xferDelay := rfl
@[simp] theorem illegalCommand_rxLen : (illegalCommand s).rxLen = s.rxLen := rfl
@[simp] theorem illegalCommand_valCount : (illegalCommand s).valCount = s.valCount := rfl
@[simp] theorem illegalCommand_tx : (illegalCommand s).tx = s.tx := rfl
@[simp] theorem illegalCommand_val : (illegalCommand s).val = s.val := rfl
@[simp] theorem illegalCommand_rx : (illegalCommand s).rx = s.rx := rfl
@[simp] theorem illegalCommand_fsm : (illegalCommand s).fsm = s.fsm := rfl
@[simp] theorem illegalCommand_k : (illegalCommand s).k = s.k := rfl
@[simp] theorem illegalCommand_d : (illegalCommand s).d = s.d := rfl
@[simp] theorem illegalCommand_chanIn : (illegalCommand s).chanIn = s.chanIn := rfl
@[simp] theorem illegalCommand_chanOut : (illegalCommand s).chanOut = s.chanOut := rfl
@[simp] theorem illegalCommand_chanTaken : (illegalCommand s).chanTaken = s.chanTaken := rfl
@[simp] theorem illegalCommand_resetLine : (illegalCommand s).resetLine = s.resetLine := rfl
@[simp] theorem illegalCommand_epoch : (illegalCommand s).epoch = s.epoch := rfl
@[simp] theorem illegalCommand_host : (illegalCommand s).host = s.host := rfl
@[simp] theorem illegalCommand_readLog : (illegalCommand s).readLog = s.readLog := rfl
@[simp] theorem illegalCommand_schedule : (illegalCommand s).schedule = s.schedule := rfl
@[simp] theorem illegalCommand_moves : (illegalCommand s).moves = s.moves := rfl

/-! ### complete -/

@[simp] theorem complete_crc (c : ErrCode) : (complete c s).crc = s.crc := rfl
@[simp] theorem complete_reqAddr (c : ErrCode) : (complete c s).reqAddr = s.reqAddr := rfl
@[simp] theorem complete_reqFunc (c : ErrCode) : (complete c s).reqFunc = s.reqFunc := rfl
@[simp] theorem complete_reqReg (c : ErrCode) : (complete c s).reqReg = s.reqReg := rfl
@[simp] theorem complete_reqVal (c : ErrCode) : (complete c s).reqVal = s.reqVal := rfl
@[simp] theorem complete_xferChecks (c : ErrCode) : (complete c s).xferChecks = s.xferChecks := rfl
@[simp] theorem complete_xferDelay (c : ErrCode) : (complete c s).xferDelay = s.xferDelay := rfl
@[simp] theorem complete_rxLen (c : ErrCode) : (complete c s).rxLen = s.rxLen := rfl
@[simp] theorem complete_valCount (c : ErrCode) : (complete c s).valCount = s.valCount := rfl
@[simp] theorem complete_tx (c : ErrCode) : (complete c s).tx = s.tx := rfl
@[simp] theorem complete_val (c : ErrCode) : (complete c s).val = s.val := rfl
@[simp] theorem complete_rx (c : ErrCode) : (complete c s).rx = s.rx := rfl
@[simp] theorem complete_k (c : ErrCode) : (complete c s).k = s.k := rfl
@[simp] theorem complete_d (c : ErrCode) : (complete c s).d = s.d := rfl
@[simp] theorem complete_chanIn (c : ErrCode) : (complete c s).chanIn = s.chanIn := rfl
@[simp] theorem complete_chanOut (c : ErrCode) : (complete c s).chanOut = s.chanOut := rfl
@[simp] theorem complete_chanTaken (c : ErrCode) : (complete c s).chanTaken = s.chanTaken := rfl
@[simp] theorem complete_resetLine (c : ErrCode) : (complete c s).resetLine = s.resetLine := rfl
@[simp] theorem complete_epoch (c : ErrCode) : (complete c s).epoch = s.epoch := rfl
@[simp] theorem complete_host (c : ErrCode) : (complete c s).host = s.host := rfl
@[simp] theorem complete_readLog (c : ErrCode) : (complete c s).readLog = s.readLog := rfl
@[simp] theorem complete_schedule (c : ErrCode) : (complete c s).schedule = s.schedule := rfl
@[simp] theorem complete_moves (c : ErrCode) : (complete c s).moves = s.moves := rfl

/-! ### setValid -/

@[simp] theorem setValid_crc (c : ErrCode) : (setValid c s).crc = s.crc := rfl
@[simp] theorem setValid_reqAddr (c : ErrCode) : (setValid c s).reqAddr = s.reqAddr := rfl
@[simp] theorem setValid_reqFunc (c : ErrCode) : (setValid c s).reqFunc = s.reqFunc := rfl
@[simp] theorem setValid_reqReg (c : ErrCode) : (setValid c s).reqReg = s.reqReg := rfl
@[simp] theorem setValid_reqVal (c : ErrCode) : (setValid c s).reqVal = s.reqVal := rfl
@[simp] theorem setValid_xferChecks (c : ErrCode) : (setValid c s).xferChecks = s.xferChecks := rfl
@[simp] theorem setValid_xferDelay (c : ErrCode) : (setValid c s).xferDelay = s.xferDelay := rfl
@[simp] theorem setValid_rxLen (c : ErrCode) : (setValid c s).rxLen = s.rxLen := rfl
@[simp] theorem setValid_valCount (c : ErrCode) : (setValid c s).valCount = s.valCount := rfl
@[simp] theorem setValid_tx (c : ErrCode) : (setValid c s).tx = s.tx := rfl
@[simp] theorem setValid_val (c : ErrCode) : (setValid c s).val = s.val := rfl
@[simp] theorem setValid_rx (c : ErrCode) : (setValid c s).rx = s.rx := rfl
@[simp] theorem setValid_fsm (c : ErrCode) : (setValid c s).fsm = s.fsm := rfl
@[simp] theorem setValid_k (c : ErrCode) : (setValid c s).k = s.k := rfl
@[simp] theorem setValid_d (c : ErrCode) : (setValid c s).d = s.d := rfl
@[simp] theorem setValid_chanIn (c : ErrCode) : (setValid c s).chanIn = s.chanIn := rfl
@[simp] theorem setValid_chanOut (c : ErrCode) : (setValid c s).chanOut = s.chanOut := rfl
@[simp] theorem setValid_chanTaken (c : ErrCode) : (setValid c s).chanTaken = s.chanTaken := rfl
@[simp] theorem setValid_resetLine (c : ErrCode) : (setValid c s).resetLine = s.resetLine := rfl
@[simp] theorem setValid_epoch (c : ErrCode) : (setValid c s).epoch = s.epoch := rfl
@[simp] theorem setValid_host (c : ErrCode) : (setValid c s).host = s.host := rfl
@[simp] theorem setValid_readLog (c : ErrCode) : (setValid c s).readLog = s.readLog := rfl
@[simp] theorem setValid_schedule (c : ErrCode) : (setValid c s).schedule = s.schedule := rfl
@[simp] theorem setValid_moves (c : ErrCode) : (setValid c s).moves = s.moves := rfl

/-! ### setHdrMatch -/

@[simp] theorem setHdrMatch_crc (m : Bool) : (setHdrMatch m s).crc = s.crc := rfl
@[simp] theorem setHdrMatch_reqAddr (m : Bool) : (setHdrMatch m s).reqAddr = s.reqAddr := rfl
@[simp] theorem setHdrMatch_reqFunc (m : Bool) : (setHdrMatch m s).reqFunc = s.reqFunc := rfl
@[simp] theorem setHdrMatch_reqReg (m : Bool) : (setHdrMatch m s).reqReg = s.reqReg := rfl
@[simp] theorem setHdrMatch_reqVal (m : Bool) : (setHdrMatch m s).reqVal = s.reqVal := rfl
@[simp] theorem setHdrMatch_xferChecks (m : Bool) : (setHdrMatch m s).xferChecks = s.xferChecks := rfl
@[simp] theorem setHdrMatch_xferDelay (m : Bool) : (setHdrMatch m s).xferDelay = s.xferDelay := rfl
@[simp] theorem setHdrMatch_rxLen (m : Bool) : (setHdrMatch m s).rxLen = s.rxLen := rfl
@[simp] theorem setHdrMatch_valCount (m : Bool) : (setHdrMatch m s).valCount = s.valCount := rfl
@[simp] theorem setHdrMatch_tx (m : Bool) : (setHdrMatch m s).tx = s.tx := rfl
@[simp] theorem setHdrMatch_val (m : Bool) : (setHdrMatch m s).val = s.val := rfl
@[simp] theorem setHdrMatch_rx (m : Bool) : (setHdrMatch m s).rx = s.rx := rfl
@[simp] theorem setHdrMatch_fsm (m : Bool) : (setHdrMatch m s).fsm = s.fsm := rfl
@[simp] theorem setHdrMatch_k (m : Bool) : (setHdrMatch m s).k = s.k := rfl
@[simp] theorem setHdrMatch_d (m : Bool) : (setHdrMatch m s).d = s.d := rfl
@[simp] theorem setHdrMatch_chanIn (m : Bool) : (setHdrMatch m s).chanIn = s.chanIn := rfl
@[simp] theorem setHdrMatch_chanOut (m : Bool) : (setHdrMatch m s).chanOut = s.chanOut := rfl
@[simp] theorem setHdrMatch_chanTaken (m : Bool) : (setHdrMatch m s).chanTaken = s.chanTaken := rfl
@[simp] theorem setHdrMatch_resetLine (m : Bool) : (setHdrMatch m s).resetLine = s.resetLine := rfl
@[simp] theorem setHdrMatch_epoch (m : Bool) : (setHdrMatch m s).epoch = s.epoch := rfl
@[simp] theorem setHdrMatch_host (m : Bool) : (setHdrMatch m s).host = s.host := rfl
@[simp] theorem setHdrMatch_readLog (m : Bool) : (setHdrMatch m s).readLog = s.readLog := rfl
@[simp] theorem setHdrMatch_schedule (m : Bool) : (setHdrMatch m s).schedule = s.schedule := rfl
@[simp] theorem setHdrMatch_moves (m : Bool) : (setHdrMatch m s).moves = s.moves := rfl

/-! ### setTimeout -/

@[simp] theorem setTimeout_crc : (setTimeout s).crc = s.crc := rfl
@[simp] theorem setTimeout_reqAddr : (setTimeout s).reqAddr = s.reqAddr := rfl
@[simp] theorem setTimeout_reqFunc : (setTimeout s).reqFunc = s.reqFunc := rfl
@[simp] theorem setTimeout_reqReg : (setTimeout s).reqReg = s.reqReg := rfl
@[simp] theorem setTimeout_reqVal : (setTimeout s).reqVal = s.reqVal := rfl
@[simp] theorem setTimeout_xferChecks : (setTimeout s).xferChecks = s.xferChecks := rfl
@[simp] theorem setTimeout_xferDelay : (setTimeout s).xferDelay = s.xferDelay := rfl
@[simp] theorem setTimeout_rxLen : (setTimeout s).rxLen = s.rxLen := rfl
@[simp] theorem setTimeout_valCount : (setTimeout s).valCount = s.valCount := rfl
@[simp] theorem setTimeout_tx : (setTimeout s).tx = s.tx := rfl
@[simp] theorem setTimeout_val : (setTimeout s).val = s.val := rfl
@[simp] theorem setTimeout_rx : (setTimeout s).rx = s.rx := rfl
@[simp] theorem setTimeout_fsm : (setTimeout s).fsm = s.fsm := rfl
@[simp] theorem setTimeout_k : (setTimeout s).k = s.k := rfl
@[simp] theorem setTimeout_d : (setTimeout s).d = s.d := rfl
@[simp] theorem setTimeout_chanIn : (setTimeout s).chanIn = s.chanIn := rfl
@[simp] theorem setTimeout_chanOut : (setTimeout s).chanOut = s.chanOut := rfl
@[simp] theorem setTimeout_chanTaken : (setTimeout s).chanTaken = s.chanTaken := rfl
@[simp] theorem setTimeout_resetLine : (setTimeout s).resetLine = s.resetLine := rfl
@[simp] theorem setTimeout_epoch : (setTimeout s).epoch = s.epoch := rfl
@[simp] theorem setTimeout_host : (setTimeout s).host = s.host := rfl
@[simp] theorem setTimeout_readLog : (setTimeout s).readLog = s.readLog := rfl
@[simp] theorem setTimeout_schedule : (setTimeout s).schedule = s.schedule := rfl
@[simp] theorem setTimeout_moves : (setTimeout s).moves = s.moves := rfl

/-! ### setOvf -/

@[simp] theorem setOvf_crc : (setOvf s).crc = s.crc := rfl
@[simp] theorem setOvf_reqAddr : (setOvf s).reqAddr = s.reqAddr := rfl
@[simp] theorem setOvf_reqFunc : (setOvf s).reqFunc = s.reqFunc := rfl
@[simp] theorem setOvf_reqReg : (setOvf s).reqReg = s.reqReg := rfl
@[simp] theorem setOvf_reqVal : (setOvf s).reqVal = s.reqVal := rfl
@[simp] theorem setOvf_xferChecks : (setOvf s).xferChecks = s.xferChecks := rfl
@[simp] theorem setOvf_xferDelay : (setOvf s).xferDelay = s.xferDelay := rfl
@[simp] theorem setOvf_rxLen : (setOvf s).rxLen = s.rxLen := rfl
@[simp] theorem setOvf_valCount : (setOvf s).valCount = s.valCount := rfl
@[simp] theorem setOvf_tx : (setOvf s).tx = s.tx := rfl
@[simp] theorem setOvf_val : (setOvf s).val = s.val := rfl
@[simp] theorem setOvf_rx : (setOvf s).rx = s.rx := rfl
@[simp] theorem setOvf_fsm : (setOvf s).fsm = s.fsm := rfl
@[simp] theorem setOvf_k : (setOvf s).k = s.k := rfl
@[simp] theorem setOvf_d : (setOvf s).d = s.d := rfl
@[simp] theorem setOvf_chanIn : (setOvf s).chanIn = s.chanIn := rfl
@[simp] theorem setOvf_chanOut : (setOvf s).chanOut = s.chanOut := rfl
@[simp] theorem setOvf_chanTaken : (setOvf s).chanTaken = s.chanTaken := rfl
@[simp] theorem setOvf_resetLine : (setOvf s).resetLine = s.resetLine := rfl
@[simp] theorem setOvf_epoch : (setOvf s).epoch = s.epoch := rfl
@[simp] theorem setOvf_host : (setOvf s).host = s.host := rfl
@[simp] theorem setOvf_readLog : (setOvf s).readLog = s.readLog := rfl
@[simp] theorem setOvf_schedule : (setOvf s).schedule = s.schedule := rfl
@[simp] theorem setOvf_moves : (setOvf s).moves = s.moves := rfl

/-! ### writeCrc -/

@[simp] theorem writeCrc_status (c : Half) : (writeCrc c s).status = s.status := rfl
@[simp] theorem writeCrc_reqAddr (c : Half) : (writeCrc c s).reqAddr = s.reqAddr := rfl
@[simp] theorem writeCrc_reqFunc (c : Half) : (writeCrc c s).reqFunc = s.reqFunc := rfl
@[simp] theorem writeCrc_reqReg (c : Half) : (writeCrc c s).reqReg = s.reqReg := rfl
@[simp] theorem writeCrc_reqVal (c : Half) : (writeCrc c s).reqVal = s.reqVal := rfl
@[simp] theorem writeCrc_xferChecks (c : Half) : (writeCrc c s).xferChecks = s.xferChecks := rfl
@[simp] theorem writeCrc_xferDelay (c : Half) : (writeCrc c s).xferDelay = s.xferDelay := rfl
@[simp] theorem writeCrc_rxLen (c : Half) : (writeCrc c s).rxLen = s.rxLen := rfl
@[simp] theorem writeCrc_valCount (c : Half) : (writeCrc c s).valCount = s.valCount := rfl
@[simp] theorem writeCrc_tx (c : Half) : (writeCrc c s).tx = s.tx := rfl
@[simp] theorem writeCrc_val (c : Half) : (writeCrc c s).val = s.val := rfl
@[simp] theorem writeCrc_rx (c : Half) : (writeCrc c s).rx = s.rx := rfl
@[simp] theorem writeCrc_fsm (c : Half) : (writeCrc c s).fsm = s.fsm := rfl
@[simp] theorem writeCrc_k (c : Half) : (writeCrc c s).k = s.k := rfl
@[simp] theorem writeCrc_d (c : Half) : (writeCrc c s).d = s.d := rfl
@[simp] theorem writeCrc_chanIn (c : Half) : (writeCrc c s).chanIn = s.chanIn := rfl
@[simp] theorem writeCrc_chanOut (c : Half) : (writeCrc c s).chanOut = s.chanOut := rfl
@[simp] theorem writeCrc_chanTaken (c : Half) : (writeCrc c s).chanTaken = s.chanTaken := rfl
@[simp] theorem writeCrc_resetLine (c : Half) : (writeCrc c s).resetLine = s.resetLine := rfl
@[simp] theorem writeCrc_epoch (c : Half) : (writeCrc c s).epoch = s.epoch := rfl
@[simp] theorem writeCrc_host (c : Half) : (writeCrc c s).host = s.host := rfl
@[simp] theorem writeCrc_readLog (c : Half) : (writeCrc c s).readLog = s.readLog := rfl
@[simp] theorem writeCrc_schedule (c : Half) : (writeCrc c s).schedule = s.schedule := rfl
@[simp] theorem writeCrc_moves (c : Half) : (writeCrc c s).moves = s.moves := rfl

/-! ### writeRx -/

@[simp] theorem writeRx_status (i : Nat) (b : Byte) : (writeRx i b s).status = s.status := rfl
@[simp] theorem writeRx_crc (i : Nat) (b : Byte) : (writeRx i b s).crc = s.crc := rfl
@[simp] theorem writeRx_reqAddr (i : Nat) (b : Byte) : (writeRx i b s).reqAddr = s.reqAddr := rfl
@[simp] theorem writeRx_reqFunc (i : Nat) (b : Byte) : (writeRx i b s).reqFunc = s.reqFunc := rfl
@[simp] theorem writeRx_reqReg (i : Nat) (b : Byte) : (writeRx i b s).reqReg = s.reqReg := rfl
@[simp] theorem writeRx_reqVal (i : Nat) (b : Byte) : (writeRx i b s).reqVal = s.reqVal := rfl
@[simp] theorem writeRx_xferChecks (i : Nat) (b : Byte) : (writeRx i b s).xferChecks = s.xferChecks := rfl
@[simp] theorem writeRx_xferDelay (i : Nat) (b : Byte) : (writeRx i b s).xferDelay = s.xferDelay := rfl
@[simp] theorem writeRx_rxLen (i : Nat) (b : Byte) : (writeRx i b s).rxLen = s.rxLen := rfl
@[simp] theorem writeRx_valCount (i : Nat) (b : Byte) : (writeRx i b s).valCount = s.valCount := rfl
@[simp] theorem writeRx_tx (i : Nat) (b : Byte) : (writeRx i b s).tx = s.tx := rfl
@[simp] theorem writeRx_val (i : Nat) (b : Byte) : (writeRx i b s).val = s.val := rfl
@[simp] theorem writeRx_fsm (i : Nat) (b : Byte) : (writeRx i b s).fsm = s.fsm := rfl
@[simp] theorem writeRx_k (i : Nat) (b : Byte) : (writeRx i b s).k = s.k := rfl
@[simp] theorem writeRx_d (i : Nat) (b : Byte) : (writeRx i b s).d = s.d := rfl
@[simp] theorem writeRx_chanIn (i : Nat) (b : Byte) : (writeRx i b s).chanIn = s.chanIn := rfl
@[simp] theorem writeRx_chanOut (i : Nat) (b : Byte) : (writeRx i b s).chanOut = s.chanOut := rfl
@[simp] theorem writeRx_chanTaken (i : Nat) (b : Byte) : (writeRx i b s).chanTaken = s.chanTaken := rfl
@[simp] theorem writeRx_resetLine (i : Nat) (b : Byte) : (writeRx i b s).resetLine = s.resetLine := rfl
@[simp] theorem writeRx_epoch (i : Nat) (b : Byte) : (writeRx i b s).epoch = s.epoch := rfl
@[simp] theorem writeRx_host (i : Nat) (b : Byte) : (writeRx i b s).host = s.host := rfl
@[simp] theorem writeRx_readLog (i : Nat) (b : Byte) : (writeRx i b s).readLog = s.readLog := rfl
@[simp] theorem writeRx_schedule (i : Nat) (b : Byte) : (writeRx i b s).schedule = s.schedule := rfl
@[simp] theorem writeRx_moves (i : Nat) (b : Byte) : (writeRx i b s).moves = s.moves := rfl

/-! ### writeVals -/

@[simp] theorem writeVals_status (vs : List Half) : (writeVals vs s).status = s.status := rfl
@[simp] theorem writeVals_crc (vs : List Half) : (writeVals vs s).crc = s.crc := rfl
@[simp] theorem writeVals_reqAddr (vs : List Half) : (writeVals vs s).reqAddr = s.reqAddr := rfl
@[simp] theorem writeVals_reqFunc (vs : List Half) : (writeVals vs s).reqFunc = s.reqFunc := rfl
@[simp] theorem writeVals_reqReg (vs : List Half) : (writeVals vs s).reqReg = s.reqReg := rfl
@[simp] theorem writeVals_reqVal (vs : List Half) : (writeVals vs s).reqVal = s.reqVal := rfl
@[simp] theorem writeVals_xferChecks (vs : List Half) : (writeVals vs s).xferChecks = s.xferChecks := rfl
@[simp] theorem writeVals_xferDelay (vs : List Half) : (writeVals vs s).xferDelay = s.xferDelay := rfl
@[simp] theorem writeVals_rxLen (vs : List Half) : (writeVals vs s).rxLen = s.rxLen := rfl
@[simp] theorem writeVals_valCount (vs : List Half) : (writeVals vs s).valCount = s.valCount := rfl
@[simp] theorem writeVals_tx (vs : List Half) : (writeVals vs s).tx = s.tx := rfl
@[simp] theorem writeVals_rx (vs : List Half) : (writeVals vs s).rx = s.rx := rfl
@[simp] theorem writeVals_fsm (vs : List Half) : (writeVals vs s).fsm = s.fsm := rfl
@[simp] theorem writeVals_k (vs : List Half) : (writeVals vs s).k = s.k := rfl
@[simp] theorem writeVals_d (vs : List Half) : (writeVals vs s).d = s.d := rfl
@[simp] theorem writeVals_chanIn (vs : List Half) : (writeVals vs s).chanIn = s.chanIn := rfl
@[simp] theorem writeVals_chanOut (vs : List Half) : (writeVals vs s).chanOut = s.chanOut := rfl
@[simp] theorem writeVals_chanTaken (vs : List Half) : (writeVals vs s).chanTaken = s.chanTaken := rfl
@[simp] theorem writeVals_resetLine (vs : List Half) : (writeVals vs s).resetLine = s.resetLine := rfl
@[simp] theorem writeVals_epoch (vs : List Half) : (writeVals vs s).epoch = s.epoch := rfl
@[simp] theorem writeVals_host (vs : List Half) : (writeVals vs s).host = s.host := rfl
@[simp] theorem writeVals_readLog (vs : List Half) : (writeVals vs s).readLog = s.readLog := rfl
@[simp] theorem writeVals_schedule (vs : List Half) : (writeVals vs s).schedule = s.schedule := rfl
@[simp] theorem writeVals_moves (vs : List Half) : (writeVals vs s).moves = s.moves := rfl

/-! ### chanWrite -/

@[simp] theorem chanWrite_status (b : Byte) : (chanWrite b s).status = s.status := rfl
@[simp] theorem chanWrite_crc (b : Byte) : (chanWrite b s).crc = s.crc := rfl
@[simp] theorem chanWrite_reqAddr (b : Byte) : (chanWrite b s).reqAddr = s.reqAddr := rfl
@[simp] theorem chanWrite_reqFunc (b : Byte) : (chanWrite b s).reqFunc = s.reqFunc := rfl
@[simp] theorem chanWrite_reqReg (b : Byte) : (chanWrite b s).reqReg = s.reqReg := rfl
@[simp] theorem chanWrite_reqVal (b : Byte) : (chanWrite b s).reqVal = s.reqVal := rfl
@[simp] theorem chanWrite_xferChecks (b : Byte) : (chanWrite b s).xferChecks = s.xferChecks := rfl
@[simp] theorem chanWrite_xferDelay (b : Byte) : (chanWrite b s).xferDelay = s.xferDelay := rfl
@[simp] theorem chanWrite_rxLen (b : Byte) : (chanWrite b s).rxLen = s.rxLen := rfl
@[simp] theorem chanWrite_valCount (b : Byte) : (chanWrite b s).valCount = s.valCount := rfl
@[simp] theorem chanWrite_tx (b : Byte) : (chanWrite b s).tx = s.tx := rfl
@[simp] theorem chanWrite_val (b : Byte) : (chanWrite b s).val = s.val := rfl
@[simp] theorem chanWrite_rx (b : Byte) : (chanWrite b s).rx = s.rx := rfl
@[simp] theorem chanWrite_fsm (b : Byte) : (chanWrite b s).fsm = s.fsm := rfl
@[simp] theorem chanWrite_k (b : Byte) : (chanWrite b s).k = s.k := rfl
@[simp] theorem chanWrite_d (b : Byte) : (chanWrite b s).d = s.d := rfl
@[simp] theorem chanWrite_chanIn (b : Byte) : (chanWrite b s).chanIn = s.chanIn := rfl
@[simp] theorem chanWrite_chanTaken (b : Byte) : (chanWrite b s).chanTaken = s.chanTaken := rfl
@[simp] theorem chanWrite_resetLine (b : Byte) : (chanWrite b s).resetLine = s.resetLine := rfl
@[simp] theorem chanWrite_epoch (b : Byte) : (chanWrite b s).epoch = s.epoch := rfl
@[simp] theorem chanWrite_host (b : Byte) : (chanWrite b s).host = s.host := rfl
@[simp] theorem chanWrite_readLog (b : Byte) : (chanWrite b s).readLog = s.readLog := rfl
@[simp] theorem chanWrite_schedule (b : Byte) : (chanWrite b s).schedule = s.schedule := rfl
@[simp] theorem chanWrite_moves (b : Byte) : (chanWrite b s).moves = s.moves := rfl

/-! ### chanArrive -/

@[simp] theorem chanArrive_status (b : Byte) : (chanArrive b s).status = s.status := rfl
@[simp] theorem chanArrive_crc (b : Byte) : (chanArrive b s).crc = s.crc := rfl
@[simp] theorem chanArrive_reqAddr (b : Byte) : (chanArrive b s).reqAddr = s.reqAddr := rfl
@[simp] theorem chanArrive_reqFunc (b : Byte) : (chanArrive b s).reqFunc = s.reqFunc := rfl
@[simp] theorem chanArrive_reqReg (b : Byte) : (chanArrive b s).reqReg = s.reqReg := rfl
@[simp] theorem chanArrive_reqVal (b : Byte) : (chanArrive b s).reqVal = s.reqVal := rfl
@[simp] theorem chanArrive_xferChecks (b : Byte) : (chanArrive b s).xferChecks = s.xferChecks := rfl
@[simp] theorem chanArrive_xferDelay (b : Byte) : (chanArrive b s).xferDelay = s.xferDelay := rfl
@[simp] theorem chanArrive_rxLen (b : Byte) : (chanArrive b s).rxLen = s.rxLen := rfl
@[simp] theorem chanArrive_valCount (b : Byte) : (chanArrive b s).valCount = s.valCount := rfl
@[simp] theorem chanArrive_tx (b : Byte) : (chanArrive b s).tx = s.tx := rfl
@[simp] theorem chanArrive_val (b : Byte) : (chanArrive b s).val = s.val := rfl
@[simp] theorem chanArrive_rx (b : Byte) : (chanArrive b s).rx = s.rx := rfl
@[simp] theorem chanArrive_fsm (b : Byte) : (chanArrive b s).fsm = s.fsm := rfl
@[simp] theorem chanArrive_k (b : Byte) : (chanArrive b s).k = s.k := rfl
@[simp] theorem chanArrive_d (b : Byte) : (chanArrive b s).d = s.d := rfl
@[simp] theorem chanArrive_chanOut (b : Byte) : (chanArrive b s).chanOut = s.chanOut := rfl
@[simp] theorem chanArrive_chanTaken (b : Byte) : (chanArrive b s).chanTaken = s.chanTaken := rfl
@[simp] theorem chanArrive_resetLine (b : Byte) : (chanArrive b s).resetLine = s.resetLine := rfl
@[simp] theorem chanArrive_epoch (b : Byte) : (chanArrive b s).epoch = s.epoch := rfl
@[simp] theorem chanArrive_host (b : Byte) : (chanArrive b s).host = s.host := rfl
@[simp] theorem chanArrive_readLog (b : Byte) : (chanArrive b s).readLog = s.readLog := rfl
@[simp] theorem chanArrive_schedule (b : Byte) : (chanArrive b s).schedule = s.schedule := rfl
@[simp] theorem chanArrive_moves (b : Byte) : (chanArrive b s).moves = s.moves := rfl

/-! ### releaseReset -/

@[simp] theorem releaseReset_status : (releaseReset s).status = s.status := rfl
@[simp] theorem releaseReset_crc : (releaseReset s).crc = s.crc := rfl
@[simp] theorem releaseReset_reqAddr : (releaseReset s).reqAddr = s.reqAddr := rfl
@[simp] theorem releaseReset_reqFunc : (releaseReset s).reqFunc = s.reqFunc := rfl
@[simp] theorem releaseReset_reqReg : (releaseReset s).reqReg = s.reqReg := rfl
@[simp] theorem releaseReset_reqVal : (releaseReset s).reqVal = s.reqVal := rfl
@[simp] theorem releaseReset_xferChecks : (releaseReset s).xferChecks = s.xferChecks := rfl
@[simp] theorem releaseReset_xferDelay : (releaseReset s).xferDelay = s.xferDelay := rfl
@[simp] theorem releaseReset_rxLen : (releaseReset s).rxLen = s.rxLen := rfl
@[simp] theorem releaseReset_valCount : (releaseReset s).valCount = s.valCount := rfl
@[simp] theorem releaseReset_tx : (releaseReset s).tx = s.tx := rfl
@[simp] theorem releaseReset_val : (releaseReset s).val = s.val := rfl
@[simp] theorem releaseReset_rx : (releaseReset s).rx = s.rx := rfl
@[simp] theorem releaseReset_fsm : (releaseReset s).fsm = s.fsm := rfl
@[simp] theorem releaseReset_k : (releaseReset s).k = s.k := rfl
@[simp] theorem releaseReset_d : (releaseReset s).d = s.d := rfl
@[simp] theorem releaseReset_chanIn : (releaseReset s).chanIn = s.chanIn := rfl
@[simp] theorem releaseReset_chanOut : (releaseReset s).chanOut = s.chanOut := rfl
@[simp] theorem releaseReset_chanTaken : (releaseReset s).chanTaken = s.chanTaken := rfl
@[simp] theorem releaseReset_epoch : (releaseReset s).epoch = s.epoch := rfl
@[simp] theorem releaseReset_host : (releaseReset s).host = s.host := rfl
@[simp] theorem releaseReset_readLog : (releaseReset s).readLog = s.readLog := rfl
@[simp] theorem releaseReset_schedule : (releaseReset s).schedule = s.schedule := rfl
@[simp] theorem releaseReset_moves : (releaseReset s).moves = s.moves := rfl

/-! ### What they write -/

@[simp] theorem accept_status : (accept s).status = { s.status with done := false } := rfl
@[simp] theorem reject_status : (reject s).status = { s.status with rejected := true } := rfl
@[simp] theorem illegalCommand_status :
    (illegalCommand s).status = { s.status with rejected := true, done := true, err := .illegalCmd } := rfl
@[simp] theorem complete_status (c : ErrCode) :
    (complete c s).status = { s.status with err := c, done := true, busy := false } := rfl
@[simp] theorem complete_fsm (c : ErrCode) : (complete c s).fsm = .idle := rfl
@[simp] theorem setValid_status (c : ErrCode) :
    (setValid c s).status = { s.status with valid := decide (c = .ok) } := rfl
@[simp] theorem setHdrMatch_status (m : Bool) : (setHdrMatch m s).status = { s.status with hdrMatch := m } := rfl
@[simp] theorem setTimeout_status : (setTimeout s).status = { s.status with timeout := true } := rfl
@[simp] theorem setOvf_status : (setOvf s).status = { s.status with ovf := true } := rfl
@[simp] theorem writeCrc_crc (c : Half) : (writeCrc c s).crc = c := rfl
@[simp] theorem writeRx_rx (i : Nat) (b : Byte) : (writeRx i b s).rx = s.rx.write i b := rfl
@[simp] theorem writeVals_val (vs : List Half) : (writeVals vs s).val = vs ++ s.val.drop vs.length := rfl
@[simp] theorem chanWrite_chanOut (b : Byte) : (chanWrite b s).chanOut = s.chanOut ++ [b] := rfl
@[simp] theorem chanArrive_chanIn (b : Byte) : (chanArrive b s).chanIn = s.chanIn ++ [b] := rfl
@[simp] theorem releaseReset_resetLine : (releaseReset s).resetLine = false := rfl

/-! ### The schedule -/

@[simp] theorem popEvent_status : (popEvent s).status = s.status := by unfold popEvent; split <;> rfl
@[simp] theorem popEvent_crc : (popEvent s).crc = s.crc := by unfold popEvent; split <;> rfl
@[simp] theorem popEvent_reqAddr : (popEvent s).reqAddr = s.reqAddr := by unfold popEvent; split <;> rfl
@[simp] theorem popEvent_reqFunc : (popEvent s).reqFunc = s.reqFunc := by unfold popEvent; split <;> rfl
@[simp] theorem popEvent_reqReg : (popEvent s).reqReg = s.reqReg := by unfold popEvent; split <;> rfl
@[simp] theorem popEvent_reqVal : (popEvent s).reqVal = s.reqVal := by unfold popEvent; split <;> rfl
@[simp] theorem popEvent_xferChecks : (popEvent s).xferChecks = s.xferChecks := by unfold popEvent; split <;> rfl
@[simp] theorem popEvent_xferDelay : (popEvent s).xferDelay = s.xferDelay := by unfold popEvent; split <;> rfl
@[simp] theorem popEvent_rxLen : (popEvent s).rxLen = s.rxLen := by unfold popEvent; split <;> rfl
@[simp] theorem popEvent_valCount : (popEvent s).valCount = s.valCount := by unfold popEvent; split <;> rfl
@[simp] theorem popEvent_tx : (popEvent s).tx = s.tx := by unfold popEvent; split <;> rfl
@[simp] theorem popEvent_val : (popEvent s).val = s.val := by unfold popEvent; split <;> rfl
@[simp] theorem popEvent_rx : (popEvent s).rx = s.rx := by unfold popEvent; split <;> rfl
@[simp] theorem popEvent_fsm : (popEvent s).fsm = s.fsm := by unfold popEvent; split <;> rfl
@[simp] theorem popEvent_k : (popEvent s).k = s.k := by unfold popEvent; split <;> rfl
@[simp] theorem popEvent_d : (popEvent s).d = s.d := by unfold popEvent; split <;> rfl
@[simp] theorem popEvent_chanIn : (popEvent s).chanIn = s.chanIn := by unfold popEvent; split <;> rfl
@[simp] theorem popEvent_chanOut : (popEvent s).chanOut = s.chanOut := by unfold popEvent; split <;> rfl
@[simp] theorem popEvent_chanTaken : (popEvent s).chanTaken = s.chanTaken := by unfold popEvent; split <;> rfl
@[simp] theorem popEvent_resetLine : (popEvent s).resetLine = s.resetLine := by unfold popEvent; split <;> rfl
@[simp] theorem popEvent_epoch : (popEvent s).epoch = s.epoch := by unfold popEvent; split <;> rfl
@[simp] theorem popEvent_host : (popEvent s).host = s.host := by unfold popEvent; split <;> rfl
@[simp] theorem popEvent_readLog : (popEvent s).readLog = s.readLog := by unfold popEvent; split <;> rfl

theorem popEvent_cons (e : Event) (es : List Event) (h : s.schedule = e :: es) :
    popEvent s = { s with schedule := es } := by simp only [popEvent, h]

theorem nextEvent_cons (e : Event) (es : List Event) (h : s.schedule = e :: es) : nextEvent s = e := by
  simp only [nextEvent, h]

/-- A step whose move the schedule names. -/
theorem step_cons (e : Event) (es : List Event) (h : s.schedule = e :: es) :
    step s = perform Config.hw e { s with schedule := es } := by
  rw [step, stepAt, nextEvent_cons s e es h, popEvent_cons s e es h]

end Sys2Proof.Machine
end

