-- ==== Sys2Proof/Laws/Memory.lean ====
section
/-! SUPPORT. The laws of the byte memory RX and of the lists of pairs it is made of: read after write, and the canonical
form, which every operation keeps. -/

namespace Sys2Proof.Machine

variable {α : Type}

theorem sparseRead_sparseWrite_same (m : List (Nat × α)) (i : Nat) (v : α) :
    sparseRead (sparseWrite m i v) i = some v := by
  induction m with
  | nil => simp [sparseWrite, sparseRead]
  | cons c m ih =>
    obtain ⟨a, w⟩ := c
    rcases lt_trichotomy i a with h | rfl | h
    · simp [sparseWrite, sparseRead, h]
    · simp [sparseWrite, sparseRead]
    · simp [sparseWrite, sparseRead, h.not_gt, h.ne', h.ne, ih]

theorem sparseRead_sparseWrite_other (m : List (Nat × α)) (i j : Nat) (v : α) (hij : j ≠ i) :
    sparseRead (sparseWrite m i v) j = sparseRead m j := by
  induction m with
  | nil => simp [sparseWrite, sparseRead, hij.symm]
  | cons c m ih =>
    obtain ⟨a, w⟩ := c
    rcases lt_trichotomy i a with h | rfl | h
    · simp [sparseWrite, sparseRead, h, hij.symm]
    · simp [sparseWrite, sparseRead, hij.symm]
    · simp [sparseWrite, sparseRead, h.not_gt, h.ne', ih]

/-- A written list holds the new key and keys it held before. -/
theorem mem_sparseWrite {m : List (Nat × α)} {i : Nat} {v : α} {c : Nat × α} (h : c ∈ sparseWrite m i v) :
    c = (i, v) ∨ c ∈ m := by
  induction m with
  | nil => simpa [sparseWrite] using h
  | cons e m ih =>
    obtain ⟨a, w⟩ := e
    simp only [sparseWrite] at h
    split at h
    · simpa using h
    · split at h
      · rcases List.mem_cons.1 h with h | h
        · exact .inl h
        · exact .inr (List.mem_cons_of_mem _ h)
      · rcases List.mem_cons.1 h with h | h
        · exact .inr (h ▸ List.mem_cons_self)
        · exact (ih h).imp id (List.mem_cons_of_mem _)

/-- A write keeps the keys strictly rising. -/
theorem sparseWrite_wf {m : List (Nat × α)} (hm : SparseWf m) (i : Nat) (v : α) : SparseWf (sparseWrite m i v) := by
  induction m with
  | nil => simp [sparseWrite, SparseWf]
  | cons e m ih =>
    obtain ⟨a, w⟩ := e
    simp only [SparseWf, List.map_cons, List.pairwise_cons] at hm
    obtain ⟨ha, hm⟩ := hm
    simp only [sparseWrite]
    split
    next h =>
      simp only [SparseWf, List.map_cons, List.pairwise_cons, List.mem_cons]
      refine ⟨?_, ha, hm⟩
      rintro b (rfl | hb)
      · exact h
      · exact h.trans (ha b hb)
    next h =>
      split
      next h' =>
        subst h'
        simp only [SparseWf, List.map_cons, List.pairwise_cons]
        exact ⟨ha, hm⟩
      next h' =>
        simp only [SparseWf, List.map_cons, List.pairwise_cons]
        refine ⟨?_, ih hm⟩
        intro b hb
        obtain ⟨c, hc, rfl⟩ := List.mem_map.1 hb
        rcases mem_sparseWrite hc with rfl | hc
        · change a < i
          omega
        · exact ha _ (List.mem_map.2 ⟨c, hc, rfl⟩)

/-- Writing a byte below the capacity keeps RX in its canonical form. -/
theorem Memory.write_wf {cap : Nat} {m : Memory} (hm : m.Wf cap) {i : Nat} (hi : i < cap) (b : Byte) :
    (m.write i b).Wf cap := by
  refine ⟨sparseWrite_wf hm.1 i b, fun c hc => ?_⟩
  rcases mem_sparseWrite hc with rfl | hc
  · exact hi
  · exact hm.2 c hc

theorem Memory.nil_wf (cap : Nat) : Memory.Wf cap [] := by simp [Memory.Wf, SparseWf]

@[simp] theorem Memory.read_write_same (m : Memory) (i : Nat) (b : Byte) : (m.write i b).read i = some b :=
  sparseRead_sparseWrite_same m i b

theorem Memory.read_write_other (m : Memory) (i j : Nat) (b : Byte) (h : j ≠ i) :
    (m.write i b).read j = m.read j :=
  sparseRead_sparseWrite_other m i j b h

/-- A key above none of the listed ones is not listed. -/
theorem sparseRead_eq_none_of_lt {m : List (Nat × α)} {i : Nat} (h : ∀ c ∈ m, i < c.1) : sparseRead m i = none := by
  induction m with
  | nil => rfl
  | cons c m ih =>
    obtain ⟨a, w⟩ := c
    have ha : i < a := h (a, w) List.mem_cons_self
    simp only [sparseRead, ha.ne', if_false]
    exact ih fun c hc => h c (List.mem_cons_of_mem _ hc)

/-- Equal contents in canonical form are equal lists. -/
theorem sparse_ext {m n : List (Nat × α)} (hm : SparseWf m) (hn : SparseWf n)
    (h : ∀ i, sparseRead m i = sparseRead n i) : m = n := by
  induction m generalizing n with
  | nil =>
    cases n with
    | nil => rfl
    | cons c n => simpa [sparseRead] using h c.1
  | cons c m ih =>
    cases n with
    | nil => simpa [sparseRead] using h c.1
    | cons e n =>
      obtain ⟨a, v⟩ := c
      obtain ⟨b, w⟩ := e
      simp only [SparseWf, List.map_cons, List.pairwise_cons, List.mem_map, forall_exists_index, and_imp,
        forall_apply_eq_imp_iff₂] at hm hn
      have key : a = b := by
        rcases lt_trichotomy a b with hab | hab | hab
        · have := h a
          rw [sparseRead_eq_none_of_lt (m := (b, w) :: n)] at this
          · simp [sparseRead] at this
          · intro c hc
            rcases List.mem_cons.1 hc with rfl | hc
            · exact hab
            · exact hab.trans (hn.1 c hc)
        · exact hab
        · have := h b
          rw [sparseRead_eq_none_of_lt (m := (a, v) :: m)] at this
          · simp [sparseRead] at this
          · intro c hc
            rcases List.mem_cons.1 hc with rfl | hc
            · exact hab
            · exact hab.trans (hm.1 c hc)
      subst key
      have hv : v = w := by simpa [sparseRead] using h a
      subst hv
      congr 1
      refine ih hm.2 hn.2 fun i => ?_
      rcases eq_or_ne a i with rfl | hi
      · rw [sparseRead_eq_none_of_lt hm.1, sparseRead_eq_none_of_lt hn.1]
      · simpa [sparseRead, hi] using h i

/-! ### RX as its readers see it -/

@[simp] theorem rxByte_writeRx_same (s : State) (i : Nat) (b : Byte) : rxByte (writeRx i b s) i = b := by
  simp [rxByte]

theorem rxByte_writeRx_other (s : State) (i j : Nat) (b : Byte) (h : j ≠ i) :
    rxByte (writeRx i b s) j = rxByte s j := by
  simp [rxByte, Memory.read_write_other _ _ _ _ h]

/-- What RX reads as depends on its written bytes and on its draws alone. -/
theorem rxByte_congr {s t : State} (hr : t.rx = s.rx) (he : t.epoch = s.epoch) (i : Nat) : rxByte t i = rxByte s i := by
  simp [rxByte, hr, he]

theorem rxBytes_congr {s t : State} (hr : t.rx = s.rx) (he : t.epoch = s.epoch) (n : Nat) :
    rxBytes t n = rxBytes s n := by
  simp [rxBytes, funext (rxByte_congr hr he)]

end Sys2Proof.Machine
end

