-- ==== Sys2Proof/Laws/Ops.lean ====
section
/-! SUPPORT. What each shared operation can do, said once: the frame of a command, the frame check, the sequencer's steps, a
host access, one move of one agent. -/

namespace Sys2Proof.Machine

variable {s t : State}

/-! ### Commands -/

theorem command_busy (legal : Bool) (body : State → State) (h : s.status.busy = true) :
    command legal body s = .next (reject s) := by simp [command, h]

theorem command_idle (body : State → State) (h : s.status.busy = false) :
    command true body s = .next (body (accept s)) := by simp [command, h]

theorem command_illegal (body : State → State) (h : s.status.busy = false) :
    command false body s = .next (illegalCommand s) := by simp [command, h]

/-- Every command answers a next state: refused, reported as illegal, or performed. -/
theorem command_cases (legal : Bool) (body : State → State) (s : State) :
    ∃ t, command legal body s = .next t ∧
      ((s.status.busy = true ∧ t = reject s) ∨ (s.status.busy = false ∧ legal = false ∧ t = illegalCommand s) ∨
        (s.status.busy = false ∧ legal = true ∧ t = body (accept s))) := by
  cases hb : s.status.busy <;> cases legal <;> simp [command, hb]

/-- What a command does once it is accepted. -/
def bodyOf (p : Params) : Instr → State → State
  | .crcInit => fun s => complete .ok (writeCrc Config.crcInit s)
  | .crcByte b => fun s => complete .ok (writeCrc (crc16Step s.crc b) s)
  | .build => buildBody
  | .verify => verifyBody p
  | .xfer => xferBody
  | .decode n => decodeBody p n

/-- This hardware's commands are those of its parameters. -/
theorem execAt_hw (i : Instr) (s : State) : execAt Config.hw i s = exec i s := by cases i <;> rfl

theorem execAt_eq_command (p : Params) (i : Instr) (s : State) : execAt p i s = command (i.wf p) (bodyOf p i) s := by
  cases i <;> rfl

theorem execAt_idle {p : Params} {i : Instr} (hw : i.wf p = true) (hb : s.status.busy = false) :
    execAt p i s = .next (bodyOf p i (accept s)) := by
  rw [execAt_eq_command, hw, command_idle _ hb]

theorem exec_eq_command (i : Instr) (s : State) :
    exec i s = command (i.wf Config.hw) (bodyOf Config.hw i) s := by
  rw [← execAt_hw, execAt_eq_command]

theorem exec_idle {i : Instr} (hw : i.wf Config.hw = true) (hb : s.status.busy = false) :
    exec i s = .next (bodyOf Config.hw i (accept s)) := by
  rw [← execAt_hw, execAt_idle hw hb]

theorem exec_next (i : Instr) (s : State) : ∃ t, exec i s = .next t := by
  rw [exec_eq_command]
  obtain ⟨t, h, -⟩ := command_cases (i.wf Config.hw) (bodyOf Config.hw i) s
  exact ⟨t, h⟩

/-- A decoded command is well formed. -/
theorem wf_of_decode {p : Params} {w : Word} {i : Instr} (h : decode p w = .ok i) : i.wf p = true := by
  simp only [decode, decodeOp, withoutOperand] at h
  split_ifs at h <;> cases h <;> first | rfl | assumption

/-! ### The frame check -/

theorem checkRx_short (p : Params) (h : s.rxLen.toNat < p.verifyMinLen) : checkRx p s = (.lenShort, none) := by
  simp [checkRx, h]

theorem checkRx_good (p : Params) (h : p.verifyMinLen ≤ s.rxLen.toNat)
    (hl : rxByte s (s.rxLen.toNat - 2) = loByte (crc16 (rxBytes s (s.rxLen.toNat - 2))))
    (hh : rxByte s (s.rxLen.toNat - 1) = hiByte (crc16 (rxBytes s (s.rxLen.toNat - 2)))) :
    checkRx p s = (.ok, some (crc16 (rxBytes s (s.rxLen.toNat - 2)))) := by
  simp [checkRx, h.not_gt, hl, hh]

theorem checkRx_mismatch (p : Params) (h : p.verifyMinLen ≤ s.rxLen.toNat)
    (hc : ¬(rxByte s (s.rxLen.toNat - 2) = loByte (crc16 (rxBytes s (s.rxLen.toNat - 2))) ∧
      rxByte s (s.rxLen.toNat - 1) = hiByte (crc16 (rxBytes s (s.rxLen.toNat - 2))))) :
    checkRx p s = (.crcMismatch, some (crc16 (rxBytes s (s.rxLen.toNat - 2)))) := by
  simp only [checkRx, h.not_gt, if_false, hc]

/-- The frame check reads RX, RX_LEN and nothing else (R80, R84). -/
theorem checkRx_congr (p : Params) (hl : t.rxLen = s.rxLen) (hr : t.rx = s.rx) (he : t.epoch = s.epoch) :
    checkRx p t = checkRx p s := by
  simp only [checkRx, hl, rxBytes_congr hr he, rxByte_congr hr he]

/-! ### The sequencer -/

theorem coreStep_idle (p : Params) (h : s.fsm = .idle) : coreStep p s = s := by simp [coreStep, h]

theorem coreStep_tx (p : Params) (i : Fin 8) (h : s.fsm = .tx i) : coreStep p s = sendStep i s := by
  simp [coreStep, h]

theorem coreStep_check (p : Params) (h : s.fsm = .check) : coreStep p s = checkStep s := by simp [coreStep, h]

theorem coreStep_sleep (p : Params) (h : s.fsm = .sleep) : coreStep p s = sleepStep s := by simp [coreStep, h]

theorem coreStep_drain (p : Params) (h : s.fsm = .drain) : coreStep p s = drainStep p s := by simp [coreStep, h]

/-! ### Host accesses -/

/-- What the submission of a word can do (R74). -/
theorem submit_cases {p : Params} {w : Word} (h : submit p w s = .next t) :
    (s.status.busy = true ∧ t = reject s) ∨
    (s.status.busy = false ∧ (∃ e, decode p w = .error e) ∧ t = illegalCommand s) ∨
    (s.status.busy = false ∧ ∃ i, decode p w = .ok i ∧ t = bodyOf p i (accept s)) := by
  unfold submit at h
  split at h
  next hb => cases h; exact .inl ⟨hb, rfl⟩
  next hb =>
    have hb : s.status.busy = false := by simpa using hb
    split at h
    next e he => cases h; exact .inr (.inl ⟨hb, ⟨e, he⟩, rfl⟩)
    next i hi =>
      rw [execAt_idle (wf_of_decode hi) hb] at h
      cases h
      exact .inr (.inr ⟨hb, i, hi, rfl⟩)

/-- A store to a RW register while idle: at most one of the nine changes. -/
def Stored (p : Params) (v : Word) (s t : State) : Prop :=
  t = { s with crc := v.setWidth 16 } ∨ t = { s with reqAddr := v.setWidth 8 } ∨ t = { s with reqFunc := v.setWidth 8 } ∨
  t = { s with reqReg := v.setWidth 16 } ∨ t = { s with reqVal := v.setWidth 16 } ∨
  t = { s with xferChecks := v.setWidth 8 } ∨ t = { s with xferDelay := v.setWidth 16 } ∨
  ((v.setWidth 9).toNat ≤ p.rxCap ∧ t = { s with rxLen := v.setWidth 9 }) ∨
  ∃ i, t = writeRx i (v.setWidth 8) s ∧ i < p.rxCap

theorem lowReg_ne_rx (off i : Nat) : lowReg off ≠ .rx i := by
  unfold lowReg
  repeat' split
  all_goals simp

theorem lowReg_eq_cmd {off : Nat} (h : lowReg off = .cmd) : off = 0 := by
  unfold lowReg at h
  split at h
  · assumption
  · repeat' split at h
    all_goals simp at h

theorem lowReg_eq_status {off : Nat} (h : lowReg off = .status) : off = 4 := by
  unfold lowReg at h
  split at h
  · simp at h
  split at h
  · assumption
  · repeat' split at h
    all_goals simp at h

/-- Where the map of R43 takes an offset. -/
theorem regAt_cases (p : Params) (off : Nat) :
    regAt p off = lowReg off ∨ (∃ i, regAt p off = .tx i) ∨ (∃ j, regAt p off = .val j) ∨
      (∃ i, regAt p off = .rx i ∧ i < p.rxCap) ∨ regAt p off = .reserved := by
  unfold regAt
  split
  · exact .inl rfl
  split
  · exact .inr (.inl ⟨_, rfl⟩)
  split
  · simp
  split
  · exact .inr (.inr (.inl ⟨_, rfl⟩))
  split
  · simp
  split
  next h1 h2 =>
    refine .inr (.inr (.inr (.inl ⟨_, rfl, ?_⟩)))
    omega
  · simp

/-! What stands at the offsets of R43, for parameters in their legal ranges (R9). -/

theorem regAt_tx (p : Params) (i : Fin 8) : regAt p (0x040 + 4 * i.val) = .tx i := by
  unfold regAt
  rw [if_neg (by omega), dif_pos (by omega)]
  congr 1
  apply Fin.ext
  simp only []
  omega

theorem regAt_val {p : Params} {j : Nat} (h : j < p.valCap) : regAt p (0x080 + 4 * j) = .val j := by
  unfold regAt
  rw [if_neg (by omega), dif_neg (by omega), if_neg (by omega), if_pos (by omega)]
  congr 1
  omega

/-- Above VAL the map does not depend on the ranges below it. -/
theorem regAt_high (p : Params) {off : Nat} (h : 0x400 ≤ off) (hp : p.valCap ≤ 32) :
    regAt p off = if off < 0x400 + 4 * p.rxCap then .rx ((off - 0x400) / 4) else .reserved := by
  unfold regAt
  split_ifs <;> first | rfl | omega

theorem regAt_rx {p : Params} {i : Nat} (h : i < p.rxCap) (hp : p.valCap ≤ 32) : regAt p (0x400 + 4 * i) = .rx i := by
  rw [regAt_high p (Nat.le_add_right _ _) hp, if_pos (by omega)]
  congr 1
  omega

/-- The registers below TX end with VAL_COUNT. -/
theorem lowReg_high {off : Nat} (h : 0x028 ≤ off) : lowReg off = .valCount ∨ lowReg off = .reserved := by
  unfold lowReg
  split_ifs <;> first | omega | simp

/-- Above RX_LEN and below RX there are only RO registers and reserved words. -/
theorem regAt_readOnly {p : Params} {off : Nat} (h1 : 0x028 ≤ off) (h2 : off < 0x400) :
    regAt p off = .valCount ∨ (∃ i, regAt p off = .tx i) ∨ (∃ j, regAt p off = .val j) ∨ regAt p off = .reserved := by
  rcases regAt_cases p off with h | h | h | ⟨i, h, -⟩ | h
  · rw [h]
    exact (lowReg_high h1).imp id fun h => .inr (.inr h)
  · exact .inr (.inl h)
  · exact .inr (.inr (.inl h))
  · unfold regAt at h
    split_ifs at h with h3
    · exact absurd h (lowReg_ne_rx off i)
  · exact .inr (.inr (.inr h))

/-- An index the map gives RX is below P_RX_CAP. -/
theorem regAt_rx_lt {p : Params} {off i : Nat} (h : regAt p off = .rx i) : i < p.rxCap := by
  rcases regAt_cases p off with h' | ⟨j, h'⟩ | ⟨j, h'⟩ | ⟨j, h', hj⟩ | h' <;> rw [h'] at h
  · exact absurd h (lowReg_ne_rx off i)
  · cases h
  · cases h
  · cases h; exact hj
  · cases h

theorem regAt_eq_cmd {p : Params} {off : Nat} (h : regAt p off = .cmd) : off = 0 := by
  rcases regAt_cases p off with h' | ⟨j, h'⟩ | ⟨j, h'⟩ | ⟨j, h', hj⟩ | h' <;> rw [h'] at h
  · exact lowReg_eq_cmd h
  all_goals cases h

theorem regAt_eq_status {p : Params} {off : Nat} (h : regAt p off = .status) : off = 4 := by
  rcases regAt_cases p off with h' | ⟨j, h'⟩ | ⟨j, h'⟩ | ⟨j, h', hj⟩ | h' <;> rw [h'] at h
  · exact lowReg_eq_status h
  all_goals cases h

/-- What a register write can do (R47, R48). -/
theorem writeReg_cases {p : Params} {off : Nat} {v : Word} (h : writeReg p (regAt p off) v s = .next t) :
    t = s ∨ t = reject s ∨ (regAt p off = .cmd ∧ submit p v s = .next t) ∨
      (regAt p off = .status ∧ t = writeStatus v s) ∨ (s.status.busy = false ∧ Stored p v s t) := by
  cases hr : regAt p off <;> rw [hr] at h <;> simp only [writeReg, writeRw, writeRxLen] at h
  case cmd => exact .inr (.inr (.inl ⟨rfl, h⟩))
  case status => cases h; exact .inr (.inr (.inr (.inl ⟨rfl, rfl⟩)))
  case rx i =>
    have hi := regAt_rx_lt hr
    cases hb : s.status.busy <;> simp only [hb, if_true, Bool.false_eq_true, if_false] at h <;> cases h
    · exact .inr (.inr (.inr (.inr ⟨rfl, by unfold Stored; tauto⟩)))
    · exact .inr (.inl rfl)
  case rxLen =>
    cases hb : s.status.busy <;> simp only [hb, if_true, Bool.false_eq_true, if_false] at h
    · split at h <;> cases h
      · exact .inr (.inr (.inr (.inr ⟨rfl, by unfold Stored; tauto⟩)))
      · exact .inr (.inl rfl)
    · cases h; exact .inr (.inl rfl)
  case valCount => cases h; exact .inl rfl
  case tx => cases h; exact .inl rfl
  case val => cases h; exact .inl rfl
  case reserved => cases h; exact .inl rfl
  all_goals
    cases hb : s.status.busy <;> simp only [hb, if_true, Bool.false_eq_true, if_false] at h <;> cases h
    · exact .inr (.inr (.inr (.inr ⟨rfl, by unfold Stored; tauto⟩)))
    · exact .inr (.inl rfl)

/-- A host access that has a meaning is defined, and made outside reset (R44, R122). -/
theorem hostAccess_cases {p : Params} {a : Access} (h : hostAccess p a s = .next t) :
    a.defined = true ∧ s.resetLine = false ∧
      ((a.kind = .read ∧ t = { s with readLog := s.readLog ++ [readReg s (regAt p a.off)] }) ∨
        ∃ v, a.kind = .write v ∧ writeReg p (regAt p a.off) v s = .next t) := by
  unfold hostAccess at h
  split at h
  · cases h
  next hd =>
    split at h
    · cases h
    next hr =>
      refine ⟨by simpa using hd, by simpa using hr, ?_⟩
      split at h
      next hk => cases h; exact .inl ⟨hk, rfl⟩
      next v hk => exact .inr ⟨v, hk, h⟩

theorem hostAccess_read {p : Params} {a : Access} (hd : a.defined = true) (hr : s.resetLine = false) (hk : a.kind = .read) :
    hostAccess p a s = .next { s with readLog := s.readLog ++ [readReg s (regAt p a.off)] } := by
  unfold hostAccess
  rw [if_neg (by simp [hd]), if_neg (by simp [hr]), hk]

theorem hostAccess_write {p : Params} {a : Access} {v : Word} (hd : a.defined = true) (hr : s.resetLine = false)
    (hk : a.kind = .write v) : hostAccess p a s = writeReg p (regAt p a.off) v s := by
  unfold hostAccess
  rw [if_neg (by simp [hd]), if_neg (by simp [hr]), hk]

/-! ### One move of one agent -/

/-- What the moves of the agents can do: the one place where `perform` is taken apart. -/
theorem perform_cases {p : Params} {e : Event} (h : perform p e s = .next t) :
    (∃ a u, accessAt p e s = some a ∧ hostAccess p a s = .next u ∧ ∃ h', t = { u with host := h' }) ∨
    (e = .script ∧ ∃ h', t = { s with host := h' }) ∨
    (e = .core ∧ t = coreStep p s) ∨ (∃ b, e = .arrive b ∧ t = chanArrive b s) ∨
    (e = .consume ∧ t = chanConsume s) ∨ (e = .tick ∧ t = tick s) ∨ (∃ l, e = .assertReset l ∧ t = assertReset p l s) ∨
    (e = .releaseReset ∧ t = releaseReset s) := by
  cases e <;> simp only [perform] at h
  case access a => exact .inl ⟨a, t, rfl, h, t.host, rfl⟩
  case bus bits addr kind =>
    simp only [busAccess] at h
    split at h
    · cases h
    next hb => exact .inl ⟨_, t, by simp [accessAt, hb], h, t.host, rfl⟩
  case script =>
    simp only [scriptStep] at h
    split at h
    next a dest ha =>
      split at h <;> cases h
      next u hu => exact .inl ⟨a, u, by simp [accessAt, ha], hu, by cases dest <;> exact ⟨_, rfl⟩⟩
    next h' _ => cases h; exact .inr (.inl ⟨rfl, h', rfl⟩)
    next => cases h; exact .inr (.inl ⟨rfl, s.host, rfl⟩)
    next => cases h
  all_goals cases h; simp

end Sys2Proof.Machine
end

