-- ==== Sys2Proof/Laws/Codec.lean ====
section
/-! SUPPORT. The bodies of the commands as record updates, one lemma per outcome (spec/41_frame_codec.md, spec/42_transport.md),
and the bodies' common frame. -/

namespace Sys2Proof.Machine

variable {s t : State}

/-- The CRC of RX[0..RX_LEN-3] (R80). -/
def rxCrc (s : State) : Half := crc16 (rxBytes s (s.rxLen.toNat - 2))

/-- The last two received bytes are that CRC, low byte first (R80). -/
def RxCrcGood (s : State) : Prop :=
  rxByte s (s.rxLen.toNat - 2) = loByte (rxCrc s) ∧ rxByte s (s.rxLen.toNat - 1) = hiByte (rxCrc s)

/-! ### VERIFY -/

theorem verifyBody_short (p : Params) (h : s.rxLen.toNat < p.verifyMinLen) :
    verifyBody p s =
      { s with status := { s.status with valid := false, err := .lenShort, done := true, busy := false }, fsm := .idle } := by
  simp only [verifyBody, checkRx_short p h]
  rfl

theorem verifyBody_good (p : Params) (h : p.verifyMinLen ≤ s.rxLen.toNat) (hc : RxCrcGood s) :
    verifyBody p s =
      { s with
        crc := rxCrc s
        status := { s.status with valid := true, err := .ok, done := true, busy := false }
        fsm := .idle } := by
  simp only [verifyBody, checkRx_good p h hc.1 hc.2]
  rfl

theorem verifyBody_mismatch (p : Params) (h : p.verifyMinLen ≤ s.rxLen.toNat) (hc : ¬RxCrcGood s) :
    verifyBody p s =
      { s with
        crc := rxCrc s
        status := { s.status with valid := false, err := .crcMismatch, done := true, busy := false }
        fsm := .idle } := by
  simp only [verifyBody, checkRx_mismatch p h hc]
  rfl

/-! ### DECODE -/

/-- HDR_MATCH is written before the frame check, which does not read it. -/
theorem checkRx_setHdrMatch (p : Params) (m : Bool) : checkRx p (setHdrMatch m s) = checkRx p s :=
  checkRx_congr p rfl rfl rfl

theorem decodeBody_short (p : Params) (n : Byte) (h : s.rxLen.toNat < p.verifyMinLen) :
    decodeBody p n s =
      { s with
        status := { s.status with valid := false, hdrMatch := hdrMatch n s, err := .lenShort, done := true, busy := false }
        fsm := .idle } := by
  simp only [decodeBody, checkRx_short p h]
  rfl

theorem decodeBody_mismatch (p : Params) (n : Byte) (h : p.verifyMinLen ≤ s.rxLen.toNat) (hc : ¬RxCrcGood s) :
    decodeBody p n s =
      { s with
        crc := rxCrc s
        status := { s.status with valid := false, hdrMatch := hdrMatch n s, err := .crcMismatch, done := true, busy := false }
        fsm := .idle } := by
  simp only [decodeBody, checkRx_mismatch p h hc]
  rfl

theorem decodeBody_tooShort (p : Params) (n : Byte) (h : p.verifyMinLen ≤ s.rxLen.toNat) (hc : RxCrcGood s)
    (hl : s.rxLen.toNat < responseLength n) :
    decodeBody p n s =
      { s with
        crc := rxCrc s
        status := { s.status with valid := true, hdrMatch := hdrMatch n s, err := .lenShort, done := true, busy := false }
        fsm := .idle } := by
  simp only [decodeBody, checkRx_good p h hc.1 hc.2, decodeFinish, ne_eq, not_true_eq_false, if_false]
  exact if_pos hl

theorem decodeBody_good (p : Params) (n : Byte) (h : p.verifyMinLen ≤ s.rxLen.toNat) (hc : RxCrcGood s)
    (hl : responseLength n ≤ s.rxLen.toNat) :
    decodeBody p n s =
      { s with
        crc := rxCrc s
        val := (List.range n.toNat).map (responseValue s) ++ s.val.drop n.toNat
        valCount := BitVec.ofNat 6 n.toNat
        status := { s.status with valid := true, hdrMatch := hdrMatch n s, err := .ok, done := true, busy := false }
        fsm := .idle } := by
  simp only [decodeBody, checkRx_good p h hc.1 hc.2, decodeFinish, ne_eq, not_true_eq_false, if_false]
  refine (if_neg hl.not_gt).trans ?_
  have hv : responseValue (setValid ErrCode.ok
      (writeCrcIfAny (some (crc16 (rxBytes s (s.rxLen.toNat - 2)))) (setHdrMatch (hdrMatch n s) s))) = responseValue s := rfl
  rw [hv]
  simp only [writeVals, List.length_map, List.length_range]
  rfl

/-- The outcomes of DECODE are those four. -/
theorem decodeBody_cases (p : Params) (n : Byte) (s : State) :
    s.rxLen.toNat < p.verifyMinLen ∨ (p.verifyMinLen ≤ s.rxLen.toNat ∧ ¬RxCrcGood s) ∨
      (p.verifyMinLen ≤ s.rxLen.toNat ∧ RxCrcGood s ∧ s.rxLen.toNat < responseLength n) ∨
      (p.verifyMinLen ≤ s.rxLen.toNat ∧ RxCrcGood s ∧ responseLength n ≤ s.rxLen.toNat) := by
  by_cases h1 : s.rxLen.toNat < p.verifyMinLen
  · exact .inl h1
  by_cases h2 : RxCrcGood s
  · by_cases h3 : s.rxLen.toNat < responseLength n
    · exact .inr (.inr (.inl ⟨by omega, h2, h3⟩))
    · exact .inr (.inr (.inr ⟨by omega, h2, by omega⟩))
  · exact .inr (.inl ⟨by omega, h2⟩)

/-! ### The commands that complete at once -/

/-- Every command but XFER completes in the step that accepts it (R20, R109), writing at most CRC, TX, VAL, VAL_COUNT and
STATUS; REJECTED, TIMEOUT and OVF keep their values. -/
theorem bodyOf_frame (p : Params) (i : Instr) (hi : i ≠ .xfer) (s : State) :
    ∃ c x v n st, bodyOf p i s = { s with crc := c, tx := x, val := v, valCount := n, status := st, fsm := .idle } ∧
      st.busy = false ∧ st.done = true ∧ st.rejected = s.status.rejected ∧ st.timeout = s.status.timeout ∧
      st.ovf = s.status.ovf := by
  cases i with
  | crcInit => exact ⟨_, s.tx, s.val, s.valCount, _, rfl, rfl, rfl, rfl, rfl, rfl⟩
  | crcByte b => exact ⟨_, s.tx, s.val, s.valCount, _, rfl, rfl, rfl, rfl, rfl, rfl⟩
  | build => exact ⟨_, requestFrame s, s.val, s.valCount, _, rfl, rfl, rfl, rfl, rfl, rfl⟩
  | verify =>
    by_cases h1 : s.rxLen.toNat < p.verifyMinLen
    · exact ⟨s.crc, s.tx, s.val, s.valCount, _, verifyBody_short _ h1, rfl, rfl, rfl, rfl, rfl⟩
    by_cases h2 : RxCrcGood s
    · exact ⟨_, s.tx, s.val, s.valCount, _, verifyBody_good _ (by omega) h2, rfl, rfl, rfl, rfl, rfl⟩
    · exact ⟨_, s.tx, s.val, s.valCount, _, verifyBody_mismatch _ (by omega) h2, rfl, rfl, rfl, rfl, rfl⟩
  | xfer => exact absurd rfl hi
  | decode n =>
    rcases decodeBody_cases p n s with h | ⟨h, h2⟩ | ⟨h, h2, h3⟩ | ⟨h, h2, h3⟩
    · exact ⟨s.crc, s.tx, s.val, s.valCount, _, decodeBody_short _ _ h, rfl, rfl, rfl, rfl, rfl⟩
    · exact ⟨_, s.tx, s.val, s.valCount, _, decodeBody_mismatch _ _ h h2, rfl, rfl, rfl, rfl, rfl⟩
    · exact ⟨_, s.tx, s.val, s.valCount, _, decodeBody_tooShort _ _ h h2 h3, rfl, rfl, rfl, rfl, rfl⟩
    · exact ⟨_, s.tx, _, _, _, decodeBody_good _ _ h h2 h3, rfl, rfl, rfl, rfl, rfl⟩

/-! ### The CRC -/

@[simp] theorem crc16_nil : crc16 [] = 0xFFFF#16 := rfl

/-- R76: the fold of the step. -/
theorem crc16_append (bs : List Byte) (b : Byte) : crc16 (bs ++ [b]) = crc16Step (crc16 bs) b := by
  simp [crc16, List.foldl_append]

/-- One shift as arithmetic on numbers (R75). -/
theorem crcShift_toNat (c : Half) :
    (crcShift c).toNat = if c.toNat % 2 = 1 then (c.toNat / 2) ^^^ 0xA001 else c.toNat / 2 := by
  have hb : c.getLsbD 0 = decide (c.toNat % 2 = 1) := by simp [BitVec.getLsbD, Nat.testBit_zero]
  by_cases h : c.toNat % 2 = 1
  · simp only [crcShift, hb, h, decide_true, if_true, BitVec.toNat_xor, BitVec.toNat_ushiftRight, Nat.shiftRight_eq_div_pow,
      Config.crcPoly]
    rfl
  · simp only [crcShift, hb, h, decide_false, Bool.false_eq_true, if_false, BitVec.toNat_ushiftRight,
      Nat.shiftRight_eq_div_pow]

end Sys2Proof.Machine
end

