-- ==== Sys2Proof/Laws/PerInstr.lean ====
section
/-! SUPPORT. Facts about a command as encoded, one lemma per constructor: the fields of its word are its operation, its
operand and zeros (spec/30_encoding.md R59, R70). -/

namespace Sys2Proof.Laws.Fields

/-- The fields of the encoded word (R59): OP and IMM8 of the command, the reserved fields 0. -/
def Statement (i : Instr) : Prop :=
  fieldOp (encode i) = i.op ∧ fieldRsv0 (encode i) = 0#4 ∧ fieldImm8 (encode i) = i.imm8 ∧ fieldRsv1 (encode i) = 0#16

/-- Every word of the form of R70 has the fields it was put together from. -/
theorem of_encode (i : Instr) : Statement i := by
  have ho := i.op.isLt
  have hb := i.imm8.isLt
  refine ⟨BitVec.eq_of_toNat_eq ?_, BitVec.eq_of_toNat_eq ?_, BitVec.eq_of_toNat_eq ?_, BitVec.eq_of_toNat_eq ?_⟩ <;>
    simp only [fieldOp_toNat, fieldRsv0_toNat, fieldImm8_toNat, fieldRsv1_toNat, encode_toNat, BitVec.toNat_ofNat] <;>
    omega

theorem crcInit : Statement .crcInit := of_encode _
theorem crcByte (b : Byte) : Statement (.crcByte b) := of_encode _
theorem build : Statement .build := of_encode _
theorem verify : Statement .verify := of_encode _
theorem xfer : Statement .xfer := of_encode _
theorem decode (n : Byte) : Statement (.decode n) := of_encode _

end Sys2Proof.Laws.Fields
end

