-- ==== Sys2Proof/Laws/Step.lean ====
section
/-! SUPPORT. What a step can do, said once: an access that has a meaning, a step of the sequencer, a step of the machine.
Every whole-machine rule and every invariant is a case analysis over these. -/

namespace Sys2Proof.Machine

variable {s t : State}

/-- A decoded word is its command's encoding (R69, R70). -/
theorem encode_of_decode {p : Params} {w : Word} {i : Instr} (h : decode p w = .ok i) : encode i = w := by
  have e1 := fieldRsv0_toNat w
  have e2 := fieldRsv1_toNat w
  have e3 := fieldImm8_toNat w
  have e4 := fieldOp_toNat w
  simp only [decode] at h
  split_ifs at h with h1 h2
  have key : i.op = fieldOp w ∧ i.imm8 = fieldImm8 w := by
    simp only [decodeOp, withoutOperand] at h
    split_ifs at h <;> cases h <;> simp_all [Instr.op, Instr.imm8]
  have z1 : w.toNat / 16 % 16 = 0 := by rw [← e1]; simp [not_not.1 h1]
  have z2 : w.toNat / 65536 = 0 := by rw [← e2]; simp [not_not.1 h2]
  apply BitVec.eq_of_toNat_eq
  rw [encode_toNat, key.1, key.2, e3, e4]
  omega

/-- What a host access with a meaning does: it returns a value, is refused, clears REJECTED, stores a register, or submits a
word, illegal or legal. -/
theorem access_cases {p : Params} {a : Access} (h : hostAccess p a s = .next t) :
    a.defined = true ∧ s.resetLine = false ∧
      ((∃ l, t = { s with readLog := l }) ∨ t = reject s ∨
        (∃ v, a = { bits := 32, off := 0x004, kind := .write v } ∧ t = writeStatus v s) ∨
        (s.status.busy = false ∧ ∃ v, Stored p v s t) ∨
        (s.status.busy = false ∧ t = illegalCommand s) ∨
        (s.status.busy = false ∧ ∃ i, i.wf p = true ∧ a = cmdWrite (encode i) ∧ t = bodyOf p i (accept s))) := by
  obtain ⟨hd, hr, h⟩ := hostAccess_cases h
  refine ⟨hd, hr, ?_⟩
  have hbits : a.bits = 32 := by
    simp only [Access.defined, decide_eq_true_eq] at hd
    exact hd.1
  obtain ⟨bits, off, kind⟩ := a
  obtain rfl : bits = 32 := hbits
  rcases h with ⟨_, rfl⟩ | ⟨v, hk, h⟩
  · exact .inl ⟨_, rfl⟩
  obtain rfl : kind = .write v := hk
  rcases writeReg_cases h with rfl | rfl | ⟨hc, h⟩ | ⟨hc, rfl⟩ | ⟨hb, h⟩
  · exact .inl ⟨t.readLog, rfl⟩
  · exact .inr (.inl rfl)
  · obtain rfl : off = 0 := regAt_eq_cmd hc
    rcases submit_cases h with ⟨_, rfl⟩ | ⟨hb, _, rfl⟩ | ⟨hb, i, hi, rfl⟩
    · exact .inr (.inl rfl)
    · exact .inr (.inr (.inr (.inr (.inl ⟨hb, rfl⟩))))
    · exact .inr (.inr (.inr (.inr (.inr ⟨hb, i, wf_of_decode hi, by rw [encode_of_decode hi]; rfl, rfl⟩))))
  · obtain rfl : off = 4 := regAt_eq_status hc
    exact .inr (.inr (.inl ⟨v, rfl, rfl⟩))
  · exact .inr (.inr (.inr (.inl ⟨hb, v, h⟩)))

/-- What a step of the sequencer does (R95 to R100). -/
theorem coreStep_cases (p : Params) (s : State) :
    ((s.fsm = .idle ∨ (s.fsm = .sleep ∧ s.d ≠ 0#16)) ∧ coreStep p s = s) ∨
    (∃ i, s.fsm = .tx i ∧ coreStep p s =
      { s with chanOut := s.chanOut ++ [s.tx[i]], fsm := if h : i.val < 7 then .tx ⟨i.val + 1, by omega⟩ else .check }) ∨
    (s.fsm = .check ∧ s.k = s.xferChecks ∧ coreStep p s = complete .timeout (setTimeout s)) ∨
    (s.fsm = .check ∧ s.k ≠ s.xferChecks ∧ s.chanIn ≠ [] ∧ coreStep p s = { s with fsm := .drain }) ∨
    (s.fsm = .check ∧ s.k ≠ s.xferChecks ∧ s.chanIn = [] ∧
      coreStep p s = { s with d := s.xferDelay, fsm := .sleep }) ∨
    (s.fsm = .sleep ∧ s.d = 0#16 ∧ coreStep p s = { s with k := s.k + 1#8, fsm := .check }) ∨
    (s.fsm = .drain ∧ ∃ b rest, s.chanIn = b :: rest ∧ s.rxLen.toNat < p.rxCap ∧ coreStep p s =
      { s with chanIn := rest, rx := s.rx.write s.rxLen.toNat b, rxLen := s.rxLen + 1#9 }) ∨
    (s.fsm = .drain ∧ ∃ b rest, s.chanIn = b :: rest ∧ p.rxCap ≤ s.rxLen.toNat ∧
      coreStep p s = setOvf { s with chanIn := rest }) ∨
    (s.fsm = .drain ∧ s.chanIn = [] ∧ coreStep p s = complete (drainCode s.status) s) := by
  cases hf : s.fsm with
  | idle => exact .inl ⟨.inl rfl, coreStep_idle _ hf⟩
  | tx i => exact .inr (.inl ⟨i, rfl, coreStep_tx _ i hf⟩)
  | check =>
    rw [coreStep_check _ hf, checkStep]
    by_cases h1 : s.k = s.xferChecks
    · simp [h1]
    · by_cases h2 : s.chanIn = []
      · simp [h1, h2, chanAvailable]
      · have h3 : 0 < s.chanIn.length := List.length_pos_iff.2 h2
        simp [h1, h2, h3, chanAvailable]
  | sleep =>
    rw [coreStep_sleep _ hf, sleepStep]
    by_cases h : s.d = 0#16 <;> simp [h]
  | drain =>
    rw [coreStep_drain _ hf, drainStep]
    cases hc : s.chanIn with
    | nil => simp
    | cons b rest =>
      by_cases h : s.rxLen.toNat < p.rxCap
      · right; right; right; right; right; right; left
        exact ⟨rfl, b, rest, rfl, h, by simp [storeByte, h, writeRx, hf]⟩
      · right; right; right; right; right; right; right; left
        exact ⟨rfl, b, rest, rfl, by omega, by simp [storeByte, h, hf]⟩

/-- Taking a move off the schedule changes the model's own fields alone. -/
theorem popEvent_eq (s : State) : ∃ l m, popEvent s = { s with schedule := l, moves := m } := by
  unfold popEvent
  split
  · exact ⟨_, s.moves, rfl⟩
  · exact ⟨s.schedule, _, rfl⟩

theorem accessAt_popEvent (p : Params) (e : Event) (s : State) : accessAt p e (popEvent s) = accessAt p e s := by
  cases e <;> simp [accessAt]

/-- What a step does: the move `nextEvent s`, on the state with it taken off the schedule. -/
theorem stepAt_cases {p : Params} (h : stepAt p s = .next t) :
    (∃ a u h', accessAt p (nextEvent s) s = some a ∧ hostAccess p a (popEvent s) = .next u ∧
      t = { u with host := h' }) ∨
    (nextEvent s = .script ∧ ∃ h', t = { popEvent s with host := h' }) ∨
    (nextEvent s = .core ∧ t = coreStep p (popEvent s)) ∨
    (∃ b, nextEvent s = .arrive b ∧ t = chanArrive b (popEvent s)) ∨
    (nextEvent s = .consume ∧ t = chanConsume (popEvent s)) ∨
    (nextEvent s = .tick ∧ t = tick (popEvent s)) ∨
    (∃ l, nextEvent s = .assertReset l ∧ t = assertReset p l (popEvent s)) ∨
    (nextEvent s = .releaseReset ∧ t = releaseReset (popEvent s)) := by
  rcases perform_cases h with ⟨a, u, ha, hu, h', ht⟩ | h
  · exact .inl ⟨a, u, h', by rw [← accessAt_popEvent]; exact ha, hu, ht⟩
  · exact .inr h

/-- What a step of this hardware does. -/
theorem step_cases (h : step s = .next t) :
    (∃ a u h', accessOf (nextEvent s) s = some a ∧ hostAccess Config.hw a (popEvent s) = .next u ∧
      t = { u with host := h' }) ∨
    (nextEvent s = .script ∧ ∃ h', t = { popEvent s with host := h' }) ∨
    (nextEvent s = .core ∧ t = coreStep Config.hw (popEvent s)) ∨
    (∃ b, nextEvent s = .arrive b ∧ t = chanArrive b (popEvent s)) ∨
    (nextEvent s = .consume ∧ t = chanConsume (popEvent s)) ∨
    (nextEvent s = .tick ∧ t = tick (popEvent s)) ∨
    (∃ l, nextEvent s = .assertReset l ∧ t = assertReset Config.hw l (popEvent s)) ∨
    (nextEvent s = .releaseReset ∧ t = releaseReset (popEvent s)) := stepAt_cases h

end Sys2Proof.Machine
end

