-- ==== Sys2Proof/Tests/Slice0.lean ====
section
/-! SUPPORT. The model's tests. Expected values are those of spec/95_test_vectors.md, whose row each test names, or of the
rule it names; RX bytes a test reads are written first, since an unwritten one has no known value. Below them, for each
statement with hypotheses, a concrete input that meets all of them. -/

namespace Sys2Proof.Tests

open Sys2Proof.Machine

/-! ### Small states -/

/-- Does the command answer a next state with this property? -/
def after (i : Instr) (s : State) (p : State → Bool) : Bool :=
  match exec i s with
  | .next t => p t
  | .fault _ => false
  | .refused _ => false

/-- Does the step answer a next state with this property? -/
def afterStep (s : State) (p : State → Bool) : Bool :=
  match step s with
  | .next t => p t
  | .fault _ => false
  | .refused _ => false

/-- The machine after reset, about to make one move. -/
def fresh (e : Event) : State := { State.reset with schedule := [e] }

/-- A request in the REQ registers. -/
def request (a f : Byte) (r v : Half) : State :=
  { State.reset with reqAddr := a, reqFunc := f, reqReg := r, reqVal := v }

/-- A frame received. -/
def received (bs : List Byte) : State :=
  { State.reset with rx := (List.range bs.length).zip bs, rxLen := BitVec.ofNat 9 bs.length }

/-- The frame received in answer to a request. -/
def answered (a f : Byte) (bs : List Byte) : State := { received bs with reqAddr := a, reqFunc := f }

/-- The sequencer at work: an XFER accepted after reset, in the sequencer state f, about to make one move. -/
def busyAt (f : Fsm) (e : Event) : State := { xferBody State.reset with fsm := f, schedule := [e] }

/-- The response of row V-DEC-1. -/
def response1 : List Byte := [0xFF#8, 0x03#8, 0x02#8, 0x00#8, 0x64#8, 0x90#8, 0x7B#8]

/-- The response of row V-DEC-4. -/
def response2 : List Byte := [0x01#8, 0x03#8, 0x04#8, 0x00#8, 0x00#8, 0x00#8, 0x0E#8, 0x7B#8, 0xF7#8]

/-! ### Well-formedness -/

theorem test_hw_parameters_legal : Config.hw.Legal := by decide

theorem test_decode_zero_ill_formed : (Instr.decode 0#8).wf Config.hw = false := by decide

theorem test_decode_above_valcap_ill_formed : (Instr.decode 17#8).wf Config.hw = false := by decide

theorem test_decode_valcap_well_formed : (Instr.decode 16#8).wf Config.hw = true := by decide

/-! ### Words, from the fields of R59: RSV1, IMM8, RSV0, OP -/

theorem test_word_crc_init : decode Config.hw (0#16 ++ 0x00#8 ++ 0#4 ++ 0x1#4) = .ok .crcInit := by decide

theorem test_word_crc_byte : decode Config.hw (0#16 ++ 0x31#8 ++ 0#4 ++ 0x2#4) = .ok (.crcByte 0x31#8) := by decide

theorem test_word_build : decode Config.hw (0#16 ++ 0x00#8 ++ 0#4 ++ 0x3#4) = .ok .build := by decide

theorem test_word_verify : decode Config.hw (0#16 ++ 0x00#8 ++ 0#4 ++ 0x4#4) = .ok .verify := by decide

theorem test_word_xfer : decode Config.hw (0#16 ++ 0x00#8 ++ 0#4 ++ 0x5#4) = .ok .xfer := by decide

theorem test_word_decode : decode Config.hw (0#16 ++ 0x10#8 ++ 0#4 ++ 0x6#4) = .ok (.decode 16#8) := by decide

/-- V-ENC-1, V-ENC-4, V-ENC-5, V-ENC-7, V-ENC-8, V-ENC-11, V-ENC-12. -/
theorem test_illegal_words :
    decode Config.hw 0x00000000#32 = .error .reservedOp ∧ decode Config.hw 0x00000012#32 = .error .rsv0NotZero ∧
    decode Config.hw 0x00010003#32 = .error .rsv1NotZero ∧ decode Config.hw 0x00000105#32 = .error .imm8NotZero ∧
    decode Config.hw 0x00000006#32 = .error .countOutOfRange ∧
    decode Config.hw 0x00001106#32 = .error .countOutOfRange ∧
    decode Config.hw 0x00000007#32 = .error .reservedOp ∧ decode Config.hw 0x0000000F#32 = .error .reservedOp := by
  decide

/-- The table's words with an operand in place (R70); DECODE with a count of 0 is illegal (R68). -/
theorem test_table_words :
    decodeTableWord 32 0x00000001 = some .crcInit ∧ decodeTableWord 32 0x0000FF02 = some (.crcByte 0xFF#8) ∧
    decodeTableWord 32 0x00000003 = some .build ∧ decodeTableWord 32 0x00000004 = some .verify ∧
    decodeTableWord 32 0x00000005 = some .xfer ∧ decodeTableWord 32 0x00000106 = some (.decode 1#8) ∧
    decodeTableWord 32 0x00000006 = none := by decide

/-- A table word is the next thing the machine takes (log 15). -/
theorem test_fetch_word_runs : step (State.reset.withFetchWord 32 0x00000003) = exec .build State.reset := by rfl

/-- R71: mnemonics in any case, decimal and hexadecimal numbers. -/
theorem test_assembler :
    assemble ['C', 'R', 'C', '.', 'B', 'Y', 'T', 'E', ' ', '0', 'x', '3', '1'] = some 0x00003102#32 ∧
    assemble [' ', 'd', 'e', 'c', 'o', 'd', 'e', ' ', '1', '0'] = some 0x00000A06#32 ∧
    assemble ['d', 'e', 'c', 'o', 'd', 'e'] = none ∧
    assemble ['c', 'r', 'c', '.', 'b', 'y', 't', 'e', ' ', '2', '5', '6'] = none := by decide

/-! ### The CRC generator -/

/-- V-CRC-3, V-CRC-4, V-CRC-6, V-CRC-7, V-CRC-8. -/
theorem test_crc_step :
    crc16Step 0xFFFF#16 0x00#8 = 0x40BF#16 ∧ crc16Step 0xFFFF#16 0xFF#8 = 0x00FF#16 ∧
    crc16Step 0x0000#16 0x01#8 = 0xC0C1#16 ∧ crc16Step 0x0000#16 0x80#8 = 0xA001#16 ∧
    crc16Step 0x1234#16 0x56#8 = 0xE993#16 := by decide +kernel

/-- V-CRC-1: the ASCII bytes of 123456789. -/
theorem test_crc_check_value :
    crc16 [0x31#8, 0x32#8, 0x33#8, 0x34#8, 0x35#8, 0x36#8, 0x37#8, 0x38#8, 0x39#8] = 0x4B37#16 := by decide +kernel

/-- V-CRC-12. -/
theorem test_crc_init : after .crcInit { State.reset with crc := 0x1234#16 }
    (fun t => t.crc = 0xFFFF#16 ∧ t.status.word = 0x00000002#32) = true := by decide +kernel

/-- V-CRC-10, from its second byte to its third. -/
theorem test_crc_byte : after (.crcByte 0x01#8) { State.reset with crc := 0x4100#16 }
    (fun t => t.crc = 0xC080#16 ∧ t.status.word = 0x00000002#32) = true := by decide +kernel

/-! ### The frame codec -/

/-- V-BLD-1. -/
theorem test_build : after .build (request 0xFF#8 0x03#8 0x0107#16 0x0001#16) (fun t =>
    t.tx.toList = [0xFF#8, 0x03#8, 0x01#8, 0x07#8, 0x00#8, 0x01#8, 0x21#8, 0xE9#8] ∧ t.crc = 0xE921#16) = true := by
  decide +kernel

/-- V-BLD-4. -/
theorem test_build_second : after .build (request 0x01#8 0x03#8 0x0100#16 0x000A#16) (fun t =>
    t.tx.toList = [0x01#8, 0x03#8, 0x01#8, 0x00#8, 0x00#8, 0x0A#8, 0xC4#8, 0x31#8] ∧ t.crc = 0x31C4#16) = true := by
  decide +kernel

/-- V-VER-6: the shortest frame. -/
theorem test_verify : after .verify (received [0x01#8, 0x03#8, 0x40#8, 0x21#8])
    (fun t => t.crc = 0x2140#16 ∧ t.status.word = 0x00000006#32) = true := by decide +kernel

/-- V-VER-3: the CRC bytes swapped. -/
theorem test_verify_swapped :
    after .verify (received [0xFF#8, 0x03#8, 0x01#8, 0x07#8, 0x00#8, 0x01#8, 0xE9#8, 0x21#8])
      (fun t => t.crc = 0xE921#16 ∧ t.status.word = 0x00000502#32) = true := by decide +kernel

/-- V-DEC-1. -/
theorem test_decode : after (.decode 1#8) (answered 0xFF#8 0x03#8 response1)
    (fun t => valAt t 0 = 0x0064#16 ∧ t.valCount = 1#6 ∧ t.status.word = 0x00000026#32) = true := by decide +kernel

/-- V-DEC-5: a good frame, too short for the count. -/
theorem test_decode_too_short : after (.decode 3#8) (answered 0x01#8 0x03#8 response2)
    (fun t => t.valCount = 0#6 ∧ valAt t 1 = 0x0000#16 ∧ t.status.word = 0x00000406#32) = true := by decide +kernel

/-! ### The transport -/

/-- V-XF-11: acceptance clears VALID and HDR_MATCH. -/
theorem test_xfer_accepted :
    after .xfer { State.reset with status := { Status.reset with valid := true, hdrMatch := true }, rxLen := 7#9 }
      (fun t => t.status.word = 0x00000001#32 ∧ t.rxLen = 0#9 ∧ t.fsm = .tx 0) = true := by decide +kernel

/-- V-XF-4: with XFER_CHECKS = 0 the first check is the timeout; the byte stays. -/
theorem test_xfer_no_check :
    afterStep { busyAt .check .core with xferChecks := 0#8, chanIn := [0x01#8] }
      (fun t => t.status.word = 0x0000020A#32 ∧ t.chanIn = [0x01#8] ∧ t.fsm = .idle) = true := by decide +kernel

/-- R96: the last send step goes on to the first check. -/
theorem test_last_send_step :
    afterStep { busyAt (.tx 7) .core with tx := #v[1#8, 2#8, 3#8, 4#8, 5#8, 6#8, 7#8, 8#8], chanOut := [9#8] }
      (fun t => t.chanOut = [9#8, 8#8] ∧ t.fsm = .check) = true := by decide +kernel

/-- R98: a tick in a sleep. -/
theorem test_tick : afterStep { busyAt .sleep .tick with d := 5#16 } (fun t => t.d = 4#16 ∧ t.fsm = .sleep) = true := by
  decide +kernel

/-- V-XF-7: the byte after the 256th is discarded and sets OVF. -/
theorem test_drain_overflow :
    afterStep { busyAt .drain .core with rxLen := 256#9, chanIn := [0x01#8, 0x02#8] }
      (fun t => t.rxLen = 256#9 ∧ t.chanIn = [0x02#8] ∧ t.rx = [] ∧ t.status.word = 0x00000011#32) = true := by
  decide +kernel

/-- V-XF-7: the completion after an overflow. -/
theorem test_overflow_reported :
    afterStep { busyAt .drain .core with rxLen := 256#9, status := { Status.reset with busy := true, ovf := true } }
      (fun t => t.status.word = 0x00000312#32 ∧ t.fsm = .idle) = true := by decide +kernel

/-! ### Host accesses -/

/-- V-REG-1. -/
theorem test_reset_reads :
    afterStep (fresh (hostRd 0x008)) (fun t => t.readLog = [0x0000FFFF#32]) = true ∧
    afterStep (fresh (hostRd 0x01C)) (fun t => t.readLog = [0x0000000A#32]) = true := by decide +kernel

/-- V-REG-2. -/
theorem test_crc_stores_16_bits : afterStep (fresh (hostWr 0x008 0x12345678#32)) (fun t => t.crc = 0x5678#16) = true := by
  decide +kernel

/-- V-REG-3 and V-REG-4. -/
theorem test_rx_len_bound :
    afterStep (fresh (hostWr 0x024 257#32)) (fun t => t.rxLen = 0#9 ∧ t.status.rejected = true) = true ∧
    afterStep (fresh (hostWr 0x024 256#32)) (fun t => t.rxLen = 256#9 ∧ t.status.rejected = false) = true := by
  decide +kernel

/-- V-REG-5. -/
theorem test_tx_is_read_only :
    afterStep (fresh (hostWr 0x040 0xAA#32)) (fun t => t.tx[0] = 0x00#8 ∧ t.status.rejected = false) = true := by
  decide +kernel

/-- V-REG-8 and V-REG-9. -/
theorem test_rejected_cleared_by_one :
    afterStep { fresh (hostWr 0x004 0x40#32) with status := { Status.reset with rejected := true, done := true } }
      (fun t => t.status.word = 0x00000002#32) = true ∧
    afterStep { fresh (hostWr 0x004 0x01#32) with status := { Status.reset with rejected := true, done := true } }
      (fun t => t.status.word = 0x00000042#32) = true := by decide +kernel

/-- V-REG-10. -/
theorem test_undefined_accesses :
    step (fresh (.access { bits := 16, off := 0x008, kind := .write 0#32 })) = .refused .undefinedAccess ∧
    step (fresh (hostRd 0x006)) = .refused .undefinedAccess := by exact ⟨rfl, rfl⟩

/-- V-XF-10: refused while BUSY = 1. -/
theorem test_busy_refusal :
    afterStep (busyAt .check (hostWr 0x00C 0x55#32))
      (fun t => t.status.word = 0x00000041#32 ∧ t.reqAddr = 0x00#8 ∧ t.fsm = .check) = true := by decide +kernel

/-- R72 and program P2: `wr RX[6], t ^ 0x01` with t = 0x98 in variable 1. -/
theorem test_script_write :
    afterStep { fresh .script with host := {
        program := [.wr (.rx (.const 6)) (.xor (.var 1) (.const 1))], pc := 0, vars := [(1, 0x98)] } }
      (fun t => t.rx = [(6, 0x99#8)] ∧ t.host.pc = 1) = true := by decide +kernel

/-- R72: `rd STATUS -> s`. -/
theorem test_script_read :
    afterStep { busyAt .check .script with host := { program := [.rd .status 0], pc := 0, vars := [] } }
      (fun t => t.host.vars = [(0, 1)] ∧ t.host.pc = 1) = true := by decide +kernel

/-- R72: a value wider than an access is no stop: the write is made, and refused while BUSY = 1 (R48). -/
theorem test_script_wide_value :
    afterStep { busyAt .check .script with host := {
        program := [.wr .reqAddr (.add (.const 4294967295) (.const 1))], pc := 0, vars := [] } }
      (fun t => t.status.rejected = true ∧ t.reqAddr = 0x00#8 ∧ t.host.pc = 1) = true ∧
    afterStep { fresh .script with host := {
        program := [.wr .reqAddr (.add (.const 4294967295) (.const 1))], pc := 0, vars := [] } }
      (fun t => t.status.rejected = false ∧ t.reqFunc = 0x00#8 ∧ t.host.pc = 1) = true := by decide +kernel

/-! ### Witnesses: for each statement with hypotheses, an input that meets them -/

/-- An XFER just accepted meets the invariant. -/
theorem inv_accepted (s : State) (hv : s.val = State.reset.val) (hrx : s.rx = []) (hc : s.valCount = 0#6)
    (ht : s.chanTaken = 0) (hr : s.resetLine = false) : Inv (xferBody s) := by
  constructor <;> simp [xferBody, hv, hrx, hc, ht, hr, State.reset, State.resetAt, Config.hw, Memory.Wf, SparseWf, Fsm.waiting]

/-- A core held in reset meets the invariant. -/
theorem inv_in_reset (s : State) (l : List Byte) (ht : s.chanTaken = 0) : Inv (assertReset Config.hw l s) := by
  constructor <;>
    simp [assertReset, resetCore, ht, Status.reset, Config.hw, Memory.Wf, SparseWf, Fsm.waiting]
  constructor <;> rfl

/-- An XFER just accepted, with this schedule. -/
def accepted (es : List Event) : State := xferBody { State.reset with schedule := es }

theorem inv_accepted_reset (es : List Event) : Inv (accepted es) := inv_accepted _ rfl rfl rfl rfl rfl

/-- The indexes at the two ends of RX. -/
theorem test_witness_ResetLeavesTheTableValues : 0 < 256 ∧ 255 < 256 := by decide

theorem test_witness_AssertedResetRestoresTheCore : (assertReset Config.hw [0x7B#8] State.reset).resetLine = true := by decide

theorem test_witness_ReleasedResetRunsTheFirstCommand :
    Inv (assertReset Config.hw [] State.reset) ∧ (assertReset Config.hw [] State.reset).resetLine = true ∧
      (Instr.decode 16#8).wf Config.hw = true := ⟨inv_in_reset _ _ rfl, rfl, by decide⟩

theorem test_witness_StepKeepsTheInvariant : Inv (accepted [.core]) ∧ ∃ t, step (accepted [.core]) = .next t :=
  ⟨inv_accepted_reset _, _, rfl⟩

/-- TX of row V-BLD-1. -/
def framed (es : List Event) : State :=
  { State.reset with tx := #v[0xFF#8, 0x03#8, 0x01#8, 0x07#8, 0x00#8, 0x01#8, 0x21#8, 0xE9#8], schedule := es }

theorem test_witness_StepKeepsTheTxFrame :
    TxFrameGood (framed [.tick]) ∧ ∃ t, step (framed [.tick]) = .next t :=
  ⟨.inr (by decide +kernel), _, rfl⟩

theorem test_witness_DecodeOfEncodeIsTheCommand :
    (Instr.decode 1#8).wf Config.hw = true ∧ (Instr.decode 16#8).wf Config.hw = true := by decide

/-- The ends of the operand ranges of R70. -/
theorem test_witness_LegalWordsAreThePatterns :
    decode Config.hw 0x00000002#32 = .ok (.crcByte 0x00#8) ∧ decode Config.hw 0x0000FF02#32 = .ok (.crcByte 0xFF#8) ∧
    decode Config.hw 0x00000106#32 = .ok (.decode 1#8) ∧ decode Config.hw 0x00001006#32 = .ok (.decode 16#8) := by
  decide

theorem test_witness_IllegalWordsAreReported :
    decode Config.hw 0x00001106#32 = .error .countOutOfRange ∧ State.reset.status.busy = false ∧
      State.reset.resetLine = false := by decide

theorem test_witness_StepRunsTheDecodedCommand :
    decode Config.hw 0x00001006#32 = .ok (.decode 16#8) ∧ State.reset.status.busy = false ∧
      State.reset.resetLine = false := by decide

/-- BUSY outside reset, and offsets at the ends of each clause's range. -/
theorem test_witness_BusyWritesAreRefused :
    (accepted []).status.busy = true ∧ (accepted []).resetLine = false ∧
    (0x024 ∈ [0x000, 0x008, 0x00C, 0x010, 0x014, 0x018, 0x01C, 0x020, 0x024] ∧ 255 < 256 ∧ 0x7FC = 0x400 + 4 * 255) ∧
    (0x028 ≤ 0x028 ∧ 0x028 < 0x400 ∧ 0x028 % 4 = 0) ∧ (0x028 ≤ 0x3FC ∧ 0x3FC < 0x400 ∧ 0x3FC % 4 = 0) := by decide

theorem test_witness_IdleWriteStoresTheUsedBits :
    State.reset.status.busy = false ∧ State.reset.resetLine = false ∧ (256#32).toNat % 512 ≤ 256 ∧
    256 < (257#32).toNat % 512 ∧ 255 < 256 ∧ (0x028 ≤ 0x3FC ∧ 0x3FC < 0x400 ∧ 0x3FC % 4 = 0) := by decide

/-- The ends of TX, VAL, RX and of the reserved ranges. -/
theorem test_witness_HostReadReturnsTheRegister :
    State.reset.resetLine = false ∧ 15 < 16 ∧ 255 < 256 ∧ 0x040 + 4 * (7 : Fin 8).val = 0x05C ∧
    (0x02C ≤ 0x03C ∧ 0x03C < 0x040 ∧ 0x03C % 4 = 0) ∧ (0x060 ≤ 0x07C ∧ 0x07C < 0x080 ∧ 0x07C % 4 = 0) ∧
    (0x0C0 ≤ 0x3FC ∧ 0x3FC < 0x400 ∧ 0x3FC % 4 = 0) := by decide

theorem test_witness_StatusWordLayout : (accepted []).resetLine = false := by decide

/-- One access for each way to be undefined, the others in order. -/
theorem test_witness_UndefinedAccessIsRefused :
    ({ bits := 16, off := 0x008, kind := .read } : Access).bits ≠ 32 ∧
    ({ bits := 32, off := 0x006, kind := .read } : Access).off % 4 ≠ 0 ∧
    0x7FF < ({ bits := 32, off := 0x800, kind := .read } : Access).off := by decide

theorem test_witness_CrcInitResult :
    State.reset.status.busy = false ∧ (accepted []).status.busy = true ∧ 0x01#8 ≠ 0#8 ∧ State.reset.resetLine = false := by
  decide

theorem test_witness_CrcByteResult : State.reset.status.busy = false := by decide

theorem test_witness_CrcCommandsComputeTheCrc : (received response1).status.busy = false := by decide

theorem test_witness_BuildResult :
    (request 0xFF#8 0x03#8 0x0107#16 0x0001#16).status.busy = false ∧ (accepted []).status.busy = true := by decide

theorem test_witness_CodecIgnoresTheCrcRegister :
    Instr.decode 1#8 = .build ∨ Instr.decode 1#8 = .verify ∨ ∃ n, Instr.decode 1#8 = .decode n := .inr (.inr ⟨_, rfl⟩)

theorem good_response1 : ReceivedCrcGood (received response1) := by
  show rxByte (received response1) 5 = _ ∧ rxByte (received response1) 6 = _
  decide +kernel

theorem good_minimal : ReceivedCrcGood (received [0x01#8, 0x03#8, 0x40#8, 0x21#8]) := by
  show rxByte (received [0x01#8, 0x03#8, 0x40#8, 0x21#8]) 2 = _ ∧ rxByte (received [0x01#8, 0x03#8, 0x40#8, 0x21#8]) 3 = _
  decide +kernel

theorem bad_minimal : ¬ReceivedCrcGood (received [0x01#8, 0x03#8, 0x40#8, 0x20#8]) := by
  show ¬(rxByte (received [0x01#8, 0x03#8, 0x40#8, 0x20#8]) 2 = _ ∧
    rxByte (received [0x01#8, 0x03#8, 0x40#8, 0x20#8]) 3 = _)
  decide +kernel

/-- V-VER-5, V-VER-6 and a minimal frame with a wrong CRC byte. -/
theorem test_witness_VerifyResult :
    ((received [0x01#8, 0x03#8, 0x40#8]).status.busy = false ∧ (received [0x01#8, 0x03#8, 0x40#8]).rxLen.toNat < 4) ∧
    (4 ≤ (received [0x01#8, 0x03#8, 0x40#8, 0x21#8]).rxLen.toNat ∧
      ReceivedCrcGood (received [0x01#8, 0x03#8, 0x40#8, 0x21#8])) ∧
    (4 ≤ (received [0x01#8, 0x03#8, 0x40#8, 0x20#8]).rxLen.toNat ∧
      ¬ReceivedCrcGood (received [0x01#8, 0x03#8, 0x40#8, 0x20#8])) :=
  ⟨by decide, ⟨by decide, good_minimal⟩, ⟨by decide, bad_minimal⟩⟩

theorem test_witness_DecodeReportsTheHeaderMatch :
    (received response1).status.busy = false ∧ 1 ≤ (16#8).toNat ∧ (16#8).toNat ≤ 16 := by decide

/-- Both ends of the illegal counts, and each kind of error at its boundary. -/
theorem test_witness_DecodeErrorsKeepTheValues :
    (received response1).status.busy = false ∧ (0#8).toNat = 0 ∧ 16 < (17#8).toNat ∧
    (received [0x01#8, 0x03#8, 0x40#8]).rxLen.toNat < 4 ∧
    (4 ≤ (received [0x01#8, 0x03#8, 0x40#8, 0x20#8]).rxLen.toNat ∧
      ¬ReceivedCrcGood (received [0x01#8, 0x03#8, 0x40#8, 0x20#8])) ∧
    (4 ≤ (received response1).rxLen.toNat ∧ ReceivedCrcGood (received response1) ∧
      (received response1).rxLen.toNat < 5 + 2 * (2#8).toNat) :=
  ⟨by decide, by decide, by decide, by decide, ⟨by decide, bad_minimal⟩, by decide, good_response1, by decide⟩

theorem test_witness_DecodeWritesTheValues :
    (received response1).status.busy = false ∧ 1 ≤ (1#8).toNat ∧ (1#8).toNat ≤ 16 ∧
      ReceivedCrcGood (received response1) ∧ 5 + 2 * (1#8).toNat ≤ (received response1).rxLen.toNat :=
  ⟨by decide, by decide, by decide, good_response1, by decide⟩

/-- S3: the register value 0x0064. -/
theorem test_witness_DecodeRecoversTheEncodedValues :
    (received response1).status.busy = false ∧ (received response1).rxLen.toNat = 5 + 2 * [0x0064#16].length ∧
      ∀ i b, (withCrc (0xFF#8 :: 0x03#8 :: 0x02#8 :: valueBytes [0x0064#16]))[i]? = some b →
        rxByte (received response1) i = b := by
  have e : withCrc (0xFF#8 :: 0x03#8 :: 0x02#8 :: valueBytes [0x0064#16]) = response1 := by decide +kernel
  refine ⟨by decide, by decide, fun i b h => ?_⟩
  rw [e] at h
  obtain ⟨hi, rfl⟩ := List.getElem?_eq_some_iff.1 h
  have hi : i < 7 := hi
  interval_cases i <;> rfl

theorem test_witness_XferIsAccepted :
    State.reset.status.busy = false ∧ (accepted [.core]).status.busy = true ∧
      (∃ t, step (accepted [.core]) = .next t) ∧ ¬resets (accepted [.core]) :=
  ⟨rfl, rfl, ⟨_, rfl⟩, nofun⟩

/-- The first and the last send step. -/
theorem test_witness_SendStepsHandOverTheFrame :
    (accepted []).fsm = .tx 0 ∧ (0 : Fin 8).val < 7 ∧ (busyAt (.tx 7) .core).fsm = .tx 7 ∧ (7 : Fin 8).val = 7 := by
  decide

theorem test_witness_CheckStepResult :
    (busyAt .check .core).fsm = .check ∧
    ({ busyAt .check .core with k := 10#8 } : State).k = ({ busyAt .check .core with k := 10#8 } : State).xferChecks ∧
    ((busyAt .check .core).k ≠ (busyAt .check .core).xferChecks ∧ (busyAt .check .core).chanIn = []) ∧
    (({ busyAt .check .core with k := 9#8, chanIn := [0#8] } : State).k ≠ (busyAt .check .core).xferChecks ∧
      ({ busyAt .check .core with k := 9#8, chanIn := [0#8] } : State).chanIn ≠ []) := by decide

theorem test_witness_SleepCountsTicks :
    ((busyAt .sleep .core).fsm = .sleep ∧ (busyAt .sleep .core).d = 0#16) ∧
    (({ busyAt .sleep .tick with d := 1#16 } : State).fsm = .sleep ∧
      ({ busyAt .sleep .tick with d := 1#16 } : State).d ≠ 0#16) ∧
    (busyAt .check .tick).fsm ≠ .sleep := by decide

theorem test_witness_DrainStoresOrDiscards :
    (busyAt .drain .core).fsm = .drain ∧ (busyAt .drain .core).chanIn = [] ∧
    (({ busyAt .drain .core with rxLen := 255#9, chanIn := [1#8] } : State).chanIn = 1#8 :: [] ∧
      ({ busyAt .drain .core with rxLen := 255#9, chanIn := [1#8] } : State).rxLen.toNat < 256) ∧
    256 ≤ ({ busyAt .drain .core with rxLen := 256#9, chanIn := [1#8] } : State).rxLen.toNat := by decide

theorem test_witness_DrainCollectsTheArrivedBytes :
    (busyAt .drain .core).fsm = .drain ∧ (busyAt .drain .core).rxLen = 0#9 ∧ (busyAt .drain .core).status.ovf = false := by
  decide

theorem test_witness_QuietXferTimesOut :
    Inv (accepted []) ∧ (accepted []).fsm = .tx 0 ∧ (accepted []).chanIn = [] := ⟨inv_accepted_reset _, rfl, rfl⟩

/-- An XFER of one check and one tick of delay, on the schedule in which nothing arrives. -/
def shortXfer : State := xferBody { State.reset with xferChecks := 1#8, xferDelay := 1#16, schedule := quietXfer 1 1 }

/-- BUSY after m steps. -/
def busyAfter (m : Nat) : Bool :=
  match runFor m shortXfer with
  | .next u => u.status.busy
  | .fault _ => true
  | .refused _ => true

theorem test_witness_TimeoutComesAfterExactlyTheBound :
    Inv shortXfer ∧ shortXfer.fsm = .tx 0 ∧
      (∃ t, runFor 12 shortXfer = .next t ∧ t.status.timeout = true) ∧
      ∀ m u, m < 12 → runFor m shortXfer = .next u → u.status.busy = true := by
  refine ⟨inv_accepted _ rfl rfl rfl rfl rfl, rfl, ⟨_, rfl, rfl⟩, fun m u hm hu => ?_⟩
  have h : ∀ m : Fin 12, busyAfter m = true := by decide +kernel
  have h := h ⟨m, hm⟩
  simp only [busyAfter, hu] at h
  exact h

theorem test_witness_DrainMayNotEnd :
    ({ busyAt .drain .core with chanIn := [1#8] } : State).fsm = .drain ∧
      ({ busyAt .drain .core with chanIn := [1#8] } : State).status.busy = true ∧
      ({ busyAt .drain .core with chanIn := [1#8] } : State).chanIn ≠ [] := by decide

/-- A send step. -/
theorem test_witness_OnlySendStepsWriteTheChannel : ∃ t, step (accepted [.core]) = .next t := ⟨_, rfl⟩

/-- A drain step and an arrival. -/
theorem test_witness_OnlyDrainStepsReadTheChannel :
    (∃ t, step { busyAt .drain .core with chanIn := [1#8] } = .next t) ∧ ∃ t, step (fresh (.arrive 1#8)) = .next t :=
  ⟨⟨_, rfl⟩, _, rfl⟩

theorem test_witness_RejectedIsSticky :
    (∃ t, step { fresh .core with status := { Status.reset with rejected := true } } = .next t) ∧
      ({ fresh .core with status := { Status.reset with rejected := true } } : State).status.rejected = true :=
  ⟨⟨_, rfl⟩, rfl⟩

theorem test_witness_TxIsWrittenOnlyByBuild : ∃ t, step (fresh (hostWr 0x000 0x00000003#32)) = .next t := ⟨_, rfl⟩

theorem test_witness_ValIsWrittenOnlyByDecode :
    ∃ t, step { received response1 with schedule := [hostWr 0x000 0x00000106#32] } = .next t := ⟨_, rfl⟩

theorem test_witness_FlagsAreWrittenOnlyByTheirCommands :
    (∃ t, step (fresh (hostWr 0x000 0x00000005#32)) = .next t) ∧
      ¬resets (fresh (hostWr 0x000 0x00000005#32)) := ⟨⟨_, rfl⟩, nofun⟩

theorem test_witness_VerifyAcceptsEveryBuiltFrame :
    State.reset.status.busy = false ∧ State.reset.resetLine = false ∧ ∃ b, exec .build State.reset = .next b :=
  ⟨rfl, rfl, _, rfl⟩

theorem test_witness_FrameOfTheCrcCommands :
    (∃ t, exec .crcInit State.reset = .next t) ∧ ∃ t, exec (.crcByte 0xFF#8) State.reset = .next t :=
  ⟨⟨_, rfl⟩, _, rfl⟩

theorem test_witness_FrameOfBuild : ∃ t, exec .build State.reset = .next t := ⟨_, rfl⟩

theorem test_witness_FrameOfVerifyAndDecode :
    (∃ t, exec .verify State.reset = .next t) ∧ ∃ t, exec (.decode 16#8) (received response1) = .next t :=
  ⟨⟨_, rfl⟩, _, rfl⟩

theorem test_witness_FrameOfXfer :
    (∃ t, exec .xfer State.reset = .next t) ∧ (accepted []).status.busy = true ∧ State.reset.status.busy = false :=
  ⟨⟨_, rfl⟩, rfl, rfl⟩

theorem test_witness_EveryCommandAnswersANextState :
    (accepted []).status.busy = true ∧ State.reset.status.busy = false ∧ Instr.decode 0#8 ≠ .xfer := by decide

theorem test_witness_OnlyHostMovesAreRefused : step (fresh (hostRd 0x006)) = .refused .undefinedAccess := rfl

/-- A host that stands at a command line. -/
def scripted : State :=
  { State.reset with host := { program := Line.expand 0 (.command (.decode 16#8)), pc := 0, vars := [] } }

theorem test_witness_ScriptCommandLineRunsTheCommand :
    (Instr.decode 16#8).wf Config.hw = true ∧ scripted.status.busy = false ∧ scripted.resetLine = false ∧
      scripted.host.program[scripted.host.pc]? = (Line.expand 0 (.command (.decode 16#8))).head? := by decide

/-- A poll after one statement, in a program run while the core is busy. -/
def polling : State :=
  { accepted [] with host := { program := [.assign 1 (.const 0)] ++ Line.expand 1 .poll ++ [.rd .crc 2], pc := 1, vars := [] } }

theorem test_witness_PollRepeatsWhileBusy :
    polling.resetLine = false ∧ polling.host.program = [.assign 1 (.const 0)] ++ Line.expand 1 .poll ++ [.rd .crc 2] ∧
      Stmt.label (.poll 1) ∉ [Stmt.assign 1 (.const 0)] ∧ polling.host.pc = [Stmt.assign 1 (.const 0)].length := by decide

/-- Parameters at both ends of their ranges, each bound met exactly and passed. -/
theorem test_witness_ParametersBoundTheCommands :
    ({ rxCap := 25, valCap := 32, verifyMinLen := 8 } : Params).Legal ∧
    ({ rxCap := 256, valCap := 10, verifyMinLen := 3 } : Params).Legal ∧
    State.reset.status.busy = false ∧ State.reset.resetLine = false ∧
    ((25#32).toNat % 512 ≤ 25 ∧ ¬(26#32).toNat % 512 ≤ 25) ∧ ((0#8).toNat = 0 ∧ 32 < (33#8).toNat ∧ 10 < (11#8).toNat) ∧
    (({ busyAt .drain .core with rxLen := 25#9, chanIn := [1#8] } : State).fsm = .drain ∧
      ({ busyAt .drain .core with rxLen := 25#9, chanIn := [1#8] } : State).chanIn = 1#8 :: [] ∧
      25 ≤ ({ busyAt .drain .core with rxLen := 25#9, chanIn := [1#8] } : State).rxLen.toNat) := by decide

end Sys2Proof.Tests
end

section
/-! PROOFS. A step whose move the schedule names, on a core with any parameters (spec/42_transport.md R91). -/

namespace Sys2Proof.Machine

variable {s : State} {p : Params}

theorem stepAt_core (p : Params) (s : State) (es : List Event) :
    stepAt p (s.doing .core es) = .next (coreStep p (s.todo es)) := rfl

/-- R44, R47: a host write at an aligned offset of the window, outside reset, writes the register that stands there. -/
theorem stepAt_hostWr {off : Nat} (v : Word) (es : List Event) (hr : s.resetLine = false) (hal : off % 4 = 0)
    (hwin : off < Config.windowSize) :
    stepAt p (s.doing (hostWr off v) es) = writeReg p (regAt p off) v (s.todo es) :=
  hostAccess_write (by simp [Access.defined, hal, hwin]) hr rfl

theorem writeRw_idle (store : State → State) (hb : s.status.busy = false) : writeRw store s = store s := by
  simp [writeRw, hb]

end Sys2Proof.Machine
end

section
/-! PROOFS. The parameters bound the commands (spec/00_scope.md R9). -/

namespace Sys2Proof.Machine

variable {s : State} {p : Params}

/-- R35: RX_LEN takes the low 9 bits of a write, when they are at most P_RX_CAP. -/
theorem writeRxLen_eq (p : Params) (v : Word) (s : State) :
    writeRxLen p v s = if v.toNat % 512 ≤ p.rxCap then { s with rxLen := v.extractLsb' 0 9 } else reject s := by
  rw [writeRxLen, BitVec.toNat_setWidth, BitVec.setWidth_eq_extractLsb' (by decide)]

/-- An idle host write to RX_LEN, at offset 0x024 (R43). -/
theorem stepAt_hostWr_rxLen (v : Word) (es : List Event) (hb : s.status.busy = false) (hr : s.resetLine = false) :
    stepAt p (s.doing (hostWr 0x024 v) es) = .next (writeRxLen p v (s.todo es)) := by
  rw [stepAt_hostWr v es hr (by decide) (by decide)]
  exact congrArg Host.Outcome.next (writeRw_idle _ hb)

/-- R68: a count outside 1 to P_VAL_CAP is no legal operand of DECODE. -/
theorem decode_wf_eq_false {n : Byte} (hn : n.toNat = 0 ∨ p.valCap < n.toNat) : (Instr.decode n).wf p = false :=
  decide_eq_false (by omega)

theorem execAt_illegal {i : Instr} (hw : i.wf p = false) (hb : s.status.busy = false) :
    execAt p i s = .next (illegalCommand s) := by
  rw [execAt_eq_command, hw, command_illegal _ hb]

/-- R80, R84: LEN_SHORT is what VERIFY reports of a frame shorter than P_VERIFY_MIN_LEN, and of no other. -/
theorem verifyBody_err_lenShort_iff (p : Params) (s : State) :
    (verifyBody p s).status.err = .lenShort ↔ s.rxLen.toNat < p.verifyMinLen := by
  by_cases hlen : s.rxLen.toNat < p.verifyMinLen
  · simp [verifyBody_short p hlen, hlen]
  by_cases hcrc : RxCrcGood s
  · simp [verifyBody_good p (not_lt.1 hlen) hcrc, hlen]
  · simp [verifyBody_mismatch p (not_lt.1 hlen) hcrc, hlen]

/-- R99: with RX full, a drain step discards the oldest received byte and sets OVF. -/
theorem coreStep_drain_full {b : Byte} {rest : List Byte} (hf : s.fsm = .drain) (hc : s.chanIn = b :: rest)
    (hfull : p.rxCap ≤ s.rxLen.toNat) : coreStep p s = setOvf { s with chanIn := rest } := by
  rw [coreStep_drain p hf]
  simp only [drainStep, hc]
  exact if_neg hfull.not_gt

/-- Settles O55: each bound is the lemma above that names its parameter; `exec` and `step` are their forms `At` the values
of `Config.hw`. -/
theorem parametersBoundTheCommands : Obligations.ParametersBoundTheCommands := by
  unfold Obligations.ParametersBoundTheCommands
  refine ⟨fun p s es _ hb => ⟨fun v hr => ?rxLen, fun n hn => execAt_illegal (decode_wf_eq_false hn) hb, ?verify⟩,
    fun p s b rest es _ hf hc hfull => ?drain, fun i s => (execAt_hw i s).symm, fun _ => rfl⟩
  case rxLen => rw [stepAt_hostWr_rxLen v es hb hr, writeRxLen_eq]
  case verify => exact ⟨_, execAt_idle rfl hb, verifyBody_err_lenShort_iff p (accept s)⟩
  case drain => rw [stepAt_core, coreStep_drain_full (s := s.todo es) hf hc hfull]; rfl

end Sys2Proof.Machine
end

section
/-! PROOFS. Every step of any agent keeps the invariant (spec/10_state.md R20, R35 to R40, spec/42_transport.md R94 to R100,
spec/70_reset_and_hazards.md R122). One lemma per operation, named after it; each writes out only the fields of Inv that the
operation can touch, and `{ h with … }` takes the others as they stand. -/

namespace Sys2Proof.Machine

variable {s t : State}

/-- R20, R122: a core that is not IDLE is busy, and not held in reset. -/
theorem Inv.busy_of_running (h : Inv s) (hf : s.fsm ≠ .idle) : s.status.busy = true ∧ s.resetLine = false :=
  ⟨h.busy_iff.2 hf, Bool.eq_false_iff.2 fun hr => hf (h.in_reset hr).fsm⟩

theorem Inv.fsm_of_not_busy (h : Inv s) (hb : s.status.busy = false) : s.fsm = .idle := by
  by_contra hf
  simp [h.busy_iff.2 hf] at hb

/-- Outside reset an idle core has only its buffers and counters to keep in range. -/
theorem inv_of_idle (hf : t.fsm = .idle) (hb : t.status.busy = false) (hr : t.resetLine = false)
    (hv : t.val.length = Config.hw.valCap) (hc : t.valCount.toNat ≤ Config.hw.valCap) (hrx : t.rx.Wf Config.hw.rxCap)
    (hl : t.rxLen.toNat ≤ Config.hw.rxCap) (htk : t.chanTaken ≤ t.chanOut.length) : Inv t where
  busy_iff := by simp [hf, hb]
  val_length := hv
  rx_wf := hrx
  rxLen_le := hl
  valCount_le := hc
  busy_flags := by simp [hb]
  waiting_empty := by simp [hf, Fsm.waiting]
  sending_counts := by simp [hf]
  check_counts := by simp [hf]
  sleep_counts := by simp [hf]
  drain_counts := by simp [hf]
  taken_le := htk
  in_reset := by simp [hr]

/-! ### The host's side and the environment's -/

/-- The invariant says nothing of the host or of the model's own fields. -/
theorem inv_hostSide (h : Inv s) (es : List Event) (m : Nat) (a : HostAgent) (l : List Word) :
    Inv { s with schedule := es, moves := m, host := a, readLog := l } :=
  { h with in_reset := fun hr => { h.in_reset hr with } }

theorem inv_popEvent (h : Inv s) : Inv (popEvent s) := by
  obtain ⟨es, m, hs⟩ := popEvent_eq s
  exact hs ▸ inv_hostSide h es m s.host s.readLog

theorem inv_chanArrive (h : Inv s) (b : Byte) : Inv (chanArrive b s) :=
  { h with
    drain_counts := fun hf => ⟨fun _ => by simp, (h.drain_counts hf).2⟩
    in_reset := fun hr => { h.in_reset hr with } }

theorem inv_chanConsume (h : Inv s) : Inv (chanConsume s) := by
  unfold chanConsume
  split
  next hlt => exact { h with taken_le := hlt, in_reset := fun hr => { h.in_reset hr with } }
  next => exact h

theorem inv_tick (h : Inv s) : Inv (tick s) := by
  unfold tick
  split
  next hs =>
    obtain ⟨hf, hd⟩ := hs
    obtain ⟨hk, hle⟩ := h.sleep_counts hf
    have hdec : (s.d - 1#16).toNat ≤ s.d.toNat := by bv_omega
    exact { h with
      sending_counts := by simp [hf]
      sleep_counts := fun _ => ⟨hk, hdec.trans hle⟩
      in_reset := by simp [(h.busy_of_running (by simp [hf])).2] }
  next => exact h

/-! ### Reset -/

theorem inv_assertReset (h : Inv s) (l : List Byte) : Inv (assertReset Config.hw l s) where
  busy_iff := by simp [assertReset, resetCore, Status.reset]
  val_length := List.length_replicate
  rx_wf := Memory.nil_wf _
  rxLen_le := Nat.zero_le _
  valCount_le := Nat.zero_le _
  busy_flags := nofun
  waiting_empty := nofun
  sending_counts := nofun
  check_counts := nofun
  sleep_counts := nofun
  drain_counts := nofun
  taken_le := h.taken_le
  in_reset := fun _ => by constructor <;> rfl

theorem inv_releaseReset (h : Inv s) : Inv (releaseReset s) := { h with in_reset := nofun }

/-! ### Host accesses -/

theorem inv_reject (h : Inv s) (hr : s.resetLine = false) : Inv (reject s) :=
  { h with in_reset := by simp [hr] }

/-- R26: bit 6 of a write to STATUS clears REJECTED; no other field changes. -/
theorem writeStatus_eq (v : Word) (s : State) :
    writeStatus v s = { s with status := { s.status with rejected := s.status.rejected && !v.getLsbD 6 } } := by
  cases hv : v.getLsbD 6
  · simp only [Bool.not_false, Bool.and_true]
    exact if_neg (Bool.eq_false_iff.1 hv)
  · simp only [Bool.not_true, Bool.and_false]
    exact if_pos hv

theorem inv_writeStatus (h : Inv s) (hr : s.resetLine = false) (v : Word) : Inv (writeStatus v s) := by
  rw [writeStatus_eq]
  exact { h with in_reset := by simp [hr] }

theorem inv_illegalCommand (h : Inv s) (hr : s.resetLine = false) (hb : s.status.busy = false) : Inv (illegalCommand s) :=
  inv_of_idle (h.fsm_of_not_busy hb) hb hr h.val_length h.valCount_le h.rx_wf h.rxLen_le h.taken_le

/-- R46: a store writes RW registers and RX alone. -/
theorem Stored.frame {p : Params} {v : Word} (hst : Stored p v s t) :
    t = { s with crc := t.crc, reqAddr := t.reqAddr, reqFunc := t.reqFunc, reqReg := t.reqReg, reqVal := t.reqVal,
                 xferChecks := t.xferChecks, xferDelay := t.xferDelay, rxLen := t.rxLen, rx := t.rx } := by
  rcases hst with rfl | rfl | rfl | rfl | rfl | rfl | rfl | ⟨-, rfl⟩ | ⟨i, rfl, -⟩ <;> rfl

/-- R35, R39: a store leaves RX_LEN and the indexes of RX within P_RX_CAP. -/
theorem Stored.ranges {p : Params} {v : Word} (hst : Stored p v s t) (hl : s.rxLen.toNat ≤ p.rxCap)
    (hrx : s.rx.Wf p.rxCap) : t.rxLen.toNat ≤ p.rxCap ∧ t.rx.Wf p.rxCap := by
  rcases hst with rfl | rfl | rfl | rfl | rfl | rfl | rfl | ⟨hlen, rfl⟩ | ⟨i, rfl, hi⟩
  iterate 7 exact ⟨hl, hrx⟩
  · exact ⟨hlen, hrx⟩
  · exact ⟨hl, Memory.write_wf hrx hi _⟩

theorem inv_stored {v : Word} (h : Inv s) (hr : s.resetLine = false) (hb : s.status.busy = false)
    (hst : Stored Config.hw v s t) : Inv t := by
  obtain ⟨hl, hrx⟩ := hst.ranges h.rxLen_le h.rx_wf
  rw [hst.frame]
  exact inv_of_idle (h.fsm_of_not_busy hb) hb hr h.val_length h.valCount_le hrx hl h.taken_le

/-! ### Commands -/

theorem writeCrcIfAny_eq (c : Option Half) (s : State) : writeCrcIfAny c s = writeCrc (c.getD s.crc) s := by
  cases c <;> rfl

/-- R36, R38, R85: the values change only by a DECODE that ends with OK, which writes VAL[0..n-1] and VAL_COUNT. -/
theorem bodyOf_values (p : Params) (i : Instr) (s : State) :
    ((bodyOf p i s).val = s.val ∧ (bodyOf p i s).valCount = s.valCount) ∨
    ∃ n, i = .decode n ∧ (bodyOf p i s).status.err = .ok ∧ (bodyOf p i s).valCount = BitVec.ofNat 6 n.toNat ∧
      (bodyOf p i s).val = (List.range n.toNat).map (responseValue s) ++ s.val.drop n.toNat := by
  cases i with
  | crcInit => exact .inl ⟨rfl, rfl⟩
  | crcByte b => exact .inl ⟨rfl, rfl⟩
  | build => exact .inl ⟨rfl, rfl⟩
  | verify => exact .inl (by simp [bodyOf, verifyBody, writeCrcIfAny_eq])
  | xfer => exact .inl ⟨rfl, rfl⟩
  | decode n =>
    simp only [bodyOf]
    rcases decodeBody_cases p n s with h | ⟨h, hc⟩ | ⟨h, hc, hl⟩ | ⟨h, hc, hl⟩
    · exact .inl (by simp [decodeBody_short p n h])
    · exact .inl (by simp [decodeBody_mismatch p n h hc])
    · exact .inl (by simp [decodeBody_tooShort p n h hc hl])
    · exact .inr ⟨n, rfl, by simp [decodeBody_good p n h hc hl]⟩

/-- R36, R38: a legal DECODE writes at most P_VAL_CAP values, over as many old ones. -/
theorem bodyOf_values_ranges {i : Instr} (hw : i.wf Config.hw = true) (hv : s.val.length = Config.hw.valCap)
    (hc : s.valCount.toNat ≤ Config.hw.valCap) :
    (bodyOf Config.hw i s).val.length = Config.hw.valCap ∧ (bodyOf Config.hw i s).valCount.toNat ≤ Config.hw.valCap := by
  rcases bodyOf_values Config.hw i s with ⟨hval, hcount⟩ | ⟨n, rfl, -, hcount, hval⟩
  · exact ⟨hval ▸ hv, hcount ▸ hc⟩
  · have hn : n.toNat ≤ Config.hw.valCap := (of_decide_eq_true hw).2
    constructor
    · simp only [hval, List.length_append, List.length_map, List.length_range, List.length_drop, hv]
      omega
    · exact hcount ▸ (Nat.mod_le _ _).trans hn

/-- R95: an accepted XFER starts with nothing sent, checked or received. -/
theorem inv_xferBody (h : Inv s) (hr : s.resetLine = false) : Inv (xferBody s) where
  busy_iff := by simp [xferBody]
  val_length := h.val_length
  rx_wf := h.rx_wf
  rxLen_le := Nat.zero_le _
  valCount_le := h.valCount_le
  busy_flags := fun _ => ⟨rfl, rfl, rfl, rfl⟩
  waiting_empty := fun _ => ⟨rfl, rfl⟩
  sending_counts := fun _ _ => ⟨rfl, rfl⟩
  check_counts := nofun
  sleep_counts := nofun
  drain_counts := nofun
  taken_le := h.taken_le
  in_reset := by simp [xferBody, hr]

theorem inv_accept (h : Inv s) (hr : s.resetLine = false) (hb : s.status.busy = false) : Inv (accept s) :=
  inv_of_idle (h.fsm_of_not_busy hb) hb hr h.val_length h.valCount_le h.rx_wf h.rxLen_le h.taken_le

/-- XFER enters the sequencer; every other command ends idle, with its values in range. -/
theorem inv_bodyOf {i : Instr} (h : Inv s) (hr : s.resetLine = false) (hw : i.wf Config.hw = true) :
    Inv (bodyOf Config.hw i s) := by
  by_cases hx : i = .xfer
  · exact hx ▸ inv_xferBody h hr
  · obtain ⟨hv, hc⟩ := bodyOf_values_ranges hw h.val_length h.valCount_le
    obtain ⟨c, x, v, n, st, hbody, hbusy, -⟩ := bodyOf_frame Config.hw i hx s
    rw [hbody] at hv hc ⊢
    exact inv_of_idle rfl hbusy hr hv hc h.rx_wf h.rxLen_le h.taken_le

theorem inv_hostAccess {a : Access} (h : Inv s) (ha : hostAccess Config.hw a s = .next t) : Inv t := by
  obtain ⟨-, hr, hcase⟩ := access_cases ha
  rcases hcase with ⟨l, rfl⟩ | rfl | ⟨v, -, rfl⟩ | ⟨hb, v, hst⟩ | ⟨hb, rfl⟩ | ⟨hb, i, hw, -, rfl⟩
  · exact inv_hostSide h s.schedule s.moves s.host l
  · exact inv_reject h hr
  · exact inv_writeStatus h hr v
  · exact inv_stored h hr hb hst
  · exact inv_illegalCommand h hr hb
  · exact inv_bodyOf (inv_accept h hr hb) hr hw

/-! ### The sequencer -/

/-- R100, R97, R109: completion makes the core idle and touches no buffer. -/
theorem inv_complete (h : Inv s) (hr : s.resetLine = false) (c : ErrCode) : Inv (complete c s) :=
  inv_of_idle rfl rfl hr h.val_length h.valCount_le h.rx_wf h.rxLen_le h.taken_le

theorem inv_chanWrite (h : Inv s) (b : Byte) : Inv (chanWrite b s) :=
  { h with
    taken_le := by simpa using h.taken_le.trans (Nat.le_succ _)
    in_reset := fun hr => { h.in_reset hr with } }

/-- R95 to R98: between the acceptance and the first successful check only the sequencer and its counts change, and the
counts keep the bounds of the state that is entered. -/
theorem inv_waiting {f : Fsm} {k : Byte} {d : Half} (h : Inv s) (hs : s.fsm.waiting = true) (hf : f.waiting = true)
    (hsend : ∀ i, f = .tx i → k = 0#8 ∧ d = 0#16) (hcheck : f = .check → k.toNat ≤ s.xferChecks.toNat)
    (hsleep : f = .sleep → k.toNat < s.xferChecks.toNat ∧ d.toNat ≤ s.xferDelay.toNat) :
    Inv { s with fsm := f, k := k, d := d } := by
  have hne {g : Fsm} (hg : g.waiting = true) : g ≠ .idle := by rintro rfl; cases hg
  obtain ⟨hbusy, hr⟩ := h.busy_of_running (hne hs)
  exact { h with
    busy_iff := iff_of_true hbusy (hne hf)
    waiting_empty := fun _ => h.waiting_empty hs
    sending_counts := hsend
    check_counts := hcheck
    sleep_counts := hsleep
    drain_counts := by rintro rfl; cases hf
    in_reset := by simp [hr] }

/-- R96: after the last byte the checks begin, with the counts still at 0. -/
theorem inv_sendStep {i : Fin 8} (h : Inv s) (hf : s.fsm = .tx i) : Inv (sendStep i s) := by
  have hcounts := h.sending_counts i hf
  have hs : s.fsm.waiting = true := hf ▸ rfl
  have hwrite := inv_chanWrite h s.tx[i]
  unfold sendStep
  split
  · exact inv_waiting hwrite hs rfl (fun _ _ => hcounts) nofun nofun
  · exact inv_waiting hwrite hs rfl nofun (fun _ => by simp [hcounts.1]) nofun

/-- R97: a check that does not find the bound reached has made fewer than XFER_CHECKS checks. -/
theorem inv_checkStep (h : Inv s) (hf : s.fsm = .check) : Inv (checkStep s) := by
  have hs : s.fsm.waiting = true := hf ▸ rfl
  obtain ⟨hbusy, hr⟩ := h.busy_of_running (by simp [hf])
  unfold checkStep
  split
  next => exact inv_of_idle rfl rfl hr h.val_length h.valCount_le h.rx_wf h.rxLen_le h.taken_le
  next hk =>
    have hlt : s.k.toNat < s.xferChecks.toNat := lt_of_le_of_ne (h.check_counts hf) (BitVec.toNat_ne.1 hk)
    split
    next hin =>
      exact { h with
        busy_iff := by simp [hbusy]
        waiting_empty := nofun
        sending_counts := nofun
        check_counts := nofun
        sleep_counts := nofun
        drain_counts := fun _ => ⟨fun _ => List.length_pos_iff.1 hin, by simp [(h.waiting_empty hs).2]⟩
        in_reset := by simp [hr] }
    next => exact inv_waiting h hs rfl nofun nofun fun _ => ⟨hlt, le_rfl⟩

/-- R98, R40: the count of checks does not pass the bound, so it does not wrap. -/
theorem inv_sleepStep (h : Inv s) (hf : s.fsm = .sleep) : Inv (sleepStep s) := by
  have hk : (s.k + 1#8).toNat ≤ s.xferChecks.toNat := by
    have hlt := (h.sleep_counts hf).1
    bv_omega
  unfold sleepStep
  split
  · exact inv_waiting h (hf ▸ rfl) rfl nofun (fun _ => hk) nofun
  · exact h

/-- R99: while RX has room nothing has been discarded; a byte is discarded only when RX is full. -/
theorem inv_storeByte {b : Byte} {rest : List Byte} (h : Inv s) (hf : s.fsm = .drain) :
    Inv (storeByte Config.hw b { s with chanIn := rest }) := by
  obtain ⟨-, hr⟩ := h.busy_of_running (by simp [hf])
  unfold storeByte
  split
  next hlt =>
    have hroom : s.rxLen.toNat < 256 := hlt
    have hnext : (s.rxLen + 1#9).toNat = s.rxLen.toNat + 1 := by bv_omega
    have hpos : s.rxLen + 1#9 ≠ 0#9 := by bv_omega
    have hovf : s.status.ovf ≠ true := fun ho => hroom.ne ((h.drain_counts hf).2 ho)
    exact { h with
      rx_wf := Memory.write_wf h.rx_wf hroom b
      rxLen_le := hnext.trans_le hroom
      waiting_empty := by simp [hf, Fsm.waiting]
      drain_counts := fun _ => ⟨fun h0 => absurd h0 hpos, fun ho => absurd ho hovf⟩
      in_reset := by simp [hr] }
  next hge =>
    have hfull : s.rxLen.toNat = 256 := le_antisymm h.rxLen_le (not_lt.1 hge)
    have hpos : s.rxLen ≠ 0#9 := by bv_omega
    exact { h with
      waiting_empty := by simp [hf, Fsm.waiting]
      drain_counts := fun _ => ⟨fun h0 => absurd h0 hpos, fun _ => hfull⟩
      in_reset := by simp [hr] }

theorem inv_drainStep (h : Inv s) (hf : s.fsm = .drain) : Inv (drainStep Config.hw s) := by
  unfold drainStep
  split
  · exact inv_storeByte h hf
  · exact inv_complete h (h.busy_of_running (by simp [hf])).2 _

theorem inv_coreStep (h : Inv s) : Inv (coreStep Config.hw s) := by
  cases hf : s.fsm with
  | idle => rwa [coreStep_idle _ hf]
  | tx i => exact coreStep_tx _ i hf ▸ inv_sendStep h hf
  | check => exact coreStep_check _ hf ▸ inv_checkStep h hf
  | sleep => exact coreStep_sleep _ hf ▸ inv_sleepStep h hf
  | drain => exact coreStep_drain _ hf ▸ inv_drainStep h hf

/-- Settles O5: the move that is made is one of the operations above, on the state with that move taken off the schedule. -/
theorem stepKeepsTheInvariant : Obligations.StepKeepsTheInvariant := by
  intro s t h hstep
  have hpop := inv_popEvent h
  rcases step_cases hstep with ⟨a, u, h', -, ha, rfl⟩ | ⟨-, h', rfl⟩ | ⟨-, rfl⟩ | ⟨b, -, rfl⟩ | ⟨-, rfl⟩ | ⟨-, rfl⟩ |
    ⟨l, -, rfl⟩ | ⟨-, rfl⟩
  · exact inv_hostSide (inv_hostAccess hpop ha) u.schedule u.moves h' u.readLog
  · exact inv_hostSide hpop (popEvent s).schedule (popEvent s).moves h' (popEvent s).readLog
  · exact inv_coreStep hpop
  · exact inv_chanArrive hpop b
  · exact inv_chanConsume hpop
  · exact inv_tick hpop
  · exact inv_assertReset hpop l
  · exact inv_releaseReset hpop

end Sys2Proof.Machine
end

section
/-! PROOFS. What the steps of the agents write of STATUS, TX and VAL, and which step writes it (spec/10_state.md R22 to R26, R36
to R38; spec/92_eei_decisions.md D14). -/

namespace Sys2Proof.Machine

variable {s t : State} {p : Params}

/-! ### The environment's moves and the timebase -/

theorem chanConsume_eq (s : State) : ∃ n, chanConsume s = { s with chanTaken := n } := by
  unfold chanConsume
  split
  · exact ⟨_, rfl⟩
  · exact ⟨s.chanTaken, rfl⟩

theorem tick_eq (s : State) : ∃ d, tick s = { s with d := d } := by
  unfold tick
  split
  · exact ⟨_, rfl⟩
  · exact ⟨s.d, rfl⟩

/-- Only a host access, a step of the sequencer and the assertion of reset can write STATUS, TX, VAL or VAL_COUNT. -/
theorem step_writers (h : step s = .next t) :
    (t.status = s.status ∧ t.tx = s.tx ∧ t.val = s.val ∧ t.valCount = s.valCount) ∨
    (∃ a u h', accessOf (nextEvent s) s = some a ∧ hostAccess Config.hw a (popEvent s) = .next u ∧
      t = { u with host := h' }) ∨
    (nextEvent s = .core ∧ t = coreStep Config.hw (popEvent s)) ∨
    (∃ l, nextEvent s = .assertReset l ∧ t = assertReset Config.hw l (popEvent s)) := by
  rcases step_cases h with ha | ⟨-, h', rfl⟩ | hc | ⟨b, -, rfl⟩ | ⟨-, rfl⟩ | ⟨-, rfl⟩ | hr | ⟨-, rfl⟩
  · exact .inr (.inl ha)
  · exact .inl (by simp)
  · exact .inr (.inr (.inl hc))
  · exact .inl (by simp)
  · obtain ⟨n, hn⟩ := chanConsume_eq (popEvent s)
    exact .inl (by simp [hn])
  · obtain ⟨d, hd⟩ := tick_eq (popEvent s)
    exact .inl (by simp [hd])
  · exact .inr (.inr (.inr hr))
  · exact .inl (by simp)

/-! ### The sequencer -/

/-- What the sequencer leaves unchanged (R96 to R100). -/
theorem coreStep_frame (p : Params) (s : State) :
    (coreStep p s).tx = s.tx ∧ (coreStep p s).val = s.val ∧ (coreStep p s).valCount = s.valCount ∧
      (coreStep p s).status.rejected = s.status.rejected ∧ (coreStep p s).status.valid = s.status.valid ∧
      (coreStep p s).status.hdrMatch = s.status.hdrMatch := by
  rcases coreStep_cases p s with ⟨-, h⟩ | ⟨i, -, h⟩ | ⟨-, -, h⟩ | ⟨-, -, -, h⟩ | ⟨-, -, -, h⟩ | ⟨-, -, h⟩ |
    ⟨-, b, rest, -, -, h⟩ | ⟨-, b, rest, -, -, h⟩ | ⟨-, -, h⟩ <;> simp [h]

/-! ### REJECTED -/

/-- R26: a host access keeps REJECTED set unless it writes STATUS with bit 6 set. -/
theorem hostAccess_rejected {a : Access} (h : hostAccess p a s = .next t) (hj : s.status.rejected = true) :
    t.status.rejected = true ∨ ∃ v, a = { bits := 32, off := 0x004, kind := .write v } ∧ v.getLsbD 6 = true := by
  obtain ⟨-, -, hcase⟩ := access_cases h
  rcases hcase with ⟨l, rfl⟩ | rfl | ⟨v, ha, rfl⟩ | ⟨-, v, hst⟩ | ⟨-, rfl⟩ | ⟨-, i, -, -, rfl⟩
  · exact .inl hj
  · exact .inl rfl
  · cases hv : v.getLsbD 6
    · exact .inl (by rw [writeStatus_eq, hj, hv]; rfl)
    · exact .inr ⟨v, ha, hv⟩
  · exact .inl (by rwa [hst.frame])
  · exact .inl rfl
  · by_cases hx : i = .xfer
    · exact .inl (hx ▸ hj)
    · obtain ⟨_, _, _, _, st, hbody, -, -, hrej, -⟩ := bodyOf_frame p i hx (accept s)
      exact .inl (by rw [hbody]; exact hrej.trans hj)

/-- Settles O41: of the three kinds of move that write STATUS, a host access and a step of the sequencer keep REJECTED. -/
theorem rejectedIsSticky : Obligations.RejectedIsSticky := by
  intro s t h hj
  rcases step_writers h with ⟨hst, -⟩ | ⟨a, u, h', ha, hu, rfl⟩ | ⟨-, rfl⟩ | ⟨l, hl, -⟩
  · exact .inl (hst ▸ hj)
  · rcases hostAccess_rejected hu (by simpa using hj) with hu | ⟨v, rfl, hv⟩
    · exact .inl hu
    · exact .inr (.inl ⟨v, ha, hv⟩)
  · obtain ⟨-, -, -, hrej, -⟩ := coreStep_frame Config.hw (popEvent s)
    exact .inl (by simpa [hrej] using hj)
  · exact .inr (.inr ⟨l, hl⟩)

/-! ### The results of commands -/

/-- Two states with the same TX, VAL and VAL_COUNT, and the same VALID, HDR_MATCH, TIMEOUT and OVF. -/
structure SameResults (s t : State) : Prop where
  tx : t.tx = s.tx
  val : t.val = s.val
  valCount : t.valCount = s.valCount
  valid : t.status.valid = s.status.valid
  hdrMatch : t.status.hdrMatch = s.status.hdrMatch
  timeout : t.status.timeout = s.status.timeout
  ovf : t.status.ovf = s.status.ovf

/-- Of the host's accesses only the write of a legal command word to an idle core's CMD writes results. -/
theorem hostAccess_results {a : Access} (h : hostAccess p a s = .next t) :
    SameResults s t ∨
      (s.status.busy = false ∧ ∃ i, i.wf p = true ∧ a = cmdWrite (encode i) ∧ t = bodyOf p i (accept s)) := by
  obtain ⟨-, -, hcase⟩ := access_cases h
  rcases hcase with ⟨l, rfl⟩ | rfl | ⟨v, -, rfl⟩ | ⟨-, v, hst⟩ | ⟨-, rfl⟩ | hcmd
  · exact .inl (by constructor <;> rfl)
  · exact .inl (by constructor <;> rfl)
  · exact .inl (by rw [writeStatus_eq]; constructor <;> rfl)
  · exact .inl (by rw [hst.frame]; constructor <;> rfl)
  · exact .inl (by constructor <;> rfl)
  · exact .inr hcmd

/-- Results are written by a command submitted to an idle core, by the sequencer and by reset. -/
theorem step_results (h : step s = .next t) :
    SameResults s t ∨
    (s.status.busy = false ∧ ∃ i h', i.wf Config.hw = true ∧ accessOf (nextEvent s) s = some (cmdWrite (encode i)) ∧
      t = { bodyOf Config.hw i (accept (popEvent s)) with host := h' }) ∨
    (nextEvent s = .core ∧ t = coreStep Config.hw (popEvent s)) ∨
    (∃ l, nextEvent s = .assertReset l ∧ t = assertReset Config.hw l (popEvent s)) := by
  rcases step_writers h with ⟨hst, htx, hval, hcount⟩ | ⟨a, u, h', ha, hu, rfl⟩ | hcr
  · exact .inl (by constructor <;> simp [*])
  · rcases hostAccess_results hu with hs | ⟨hb, i, hw, rfl, rfl⟩
    · exact .inl ⟨by simp [hs.tx], by simp [hs.val], by simp [hs.valCount], by simp [hs.valid], by simp [hs.hdrMatch],
        by simp [hs.timeout], by simp [hs.ovf]⟩
    · exact .inr (.inl ⟨by simpa using hb, i, h', hw, ha, rfl⟩)
  · exact .inr (.inr hcr)

/-! ### TX -/

theorem bodyOf_tx (p : Params) (i : Instr) (s : State) :
    (bodyOf p i s).tx = s.tx ∨ (i = .build ∧ (bodyOf p i s).tx = requestFrame s) := by
  cases i with
  | crcInit => exact .inl rfl
  | crcByte b => exact .inl rfl
  | build => exact .inr ⟨rfl, rfl⟩
  | verify => exact .inl (by simp [bodyOf, verifyBody, writeCrcIfAny_eq])
  | xfer => exact .inl rfl
  | decode n =>
    simp only [bodyOf, decodeBody, decodeFinish, writeCrcIfAny_eq]
    split_ifs <;> exact .inl rfl

/-- R37, R82: what TX holds after a step. -/
theorem step_tx (h : step s = .next t) :
    t.tx = s.tx ∨
    ((s.status.busy = false ∧ accessOf (nextEvent s) s = some (cmdWrite (encode .build))) ∧ ∃ u, t.tx = requestFrame u) ∨
    (resets s ∧ t.tx = Vector.replicate 8 0x00#8) := by
  rcases step_results h with hs | ⟨hb, i, h', -, ha, rfl⟩ | ⟨-, rfl⟩ | ⟨l, hl, rfl⟩
  · exact .inl hs.tx
  · rcases bodyOf_tx Config.hw i (accept (popEvent s)) with htx | ⟨rfl, htx⟩
    · exact .inl (by simpa using htx)
    · exact .inr (.inl ⟨⟨hb, ha⟩, _, htx⟩)
  · exact .inl (by simp [coreStep_frame])
  · exact .inr (.inr ⟨⟨l, hl⟩, rfl⟩)

/-- Settles O42, with BUILD's word written out. -/
theorem txIsWrittenOnlyByBuild : Obligations.TxIsWrittenOnlyByBuild := by
  intro s t h
  rcases step_tx h with htx | ⟨hbuild, -⟩ | ⟨hr, -⟩
  · exact .inl htx
  · exact .inr (.inl hbuild)
  · exact .inr (.inr hr)

/-- R62, R82: the frame BUILD writes ends with the CRC of its header, whatever the request. -/
theorem txFrameGood_of_requestFrame {u : State} (h : t.tx = requestFrame u) : TxFrameGood t :=
  .inr (by rw [h]; exact ⟨rfl, rfl⟩)

/-- Settles O6: each of the three things TX can be after a step is a frame with its CRC or the reset zeros. -/
theorem stepKeepsTheTxFrame : Obligations.StepKeepsTheTxFrame := by
  intro s t hgood h
  rcases step_tx h with htx | ⟨-, u, htx⟩ | ⟨-, htx⟩
  · simpa only [TxFrameGood, htx] using hgood
  · exact txFrameGood_of_requestFrame htx
  · exact .inl htx

/-! ### VAL and VAL_COUNT -/

/-- Settles O43: of the commands only a DECODE that ends with OK writes the values. -/
theorem valIsWrittenOnlyByDecode : Obligations.ValIsWrittenOnlyByDecode := by
  intro s t h
  rcases step_results h with hs | ⟨hb, i, h', hw, ha, rfl⟩ | ⟨-, rfl⟩ | ⟨l, hl, -⟩
  · exact .inl ⟨hs.val, hs.valCount⟩
  · rcases bodyOf_values Config.hw i (accept (popEvent s)) with ⟨hval, hcount⟩ | ⟨n, rfl, herr, hcount, -⟩
    · exact .inl ⟨by simpa using hval, by simpa using hcount⟩
    · obtain ⟨hpos, hle⟩ : 1 ≤ n.toNat ∧ n.toNat ≤ 16 := of_decide_eq_true hw
      have hfits : (BitVec.ofNat 6 n.toNat).toNat = n.toNat := Nat.mod_eq_of_lt (by omega)
      exact .inr (.inl ⟨hb, herr, n, hpos, hle, by rw [hcount, hfits], ha⟩)
  · exact .inl (by simp [coreStep_frame])
  · exact .inr (.inr ⟨l, hl⟩)

/-! ### VALID, HDR_MATCH, TIMEOUT and OVF -/

/-- R22: the commands that write VALID. -/
theorem bodyOf_valid (p : Params) (i : Instr) (s : State) :
    (bodyOf p i s).status.valid = s.status.valid ∨ i = .verify ∨ (∃ n, i = .decode n) ∨
      (i = .xfer ∧ (bodyOf p i s).status.valid = false) := by
  cases i <;> simp [bodyOf, buildBody, xferBody]

/-- R25: the commands that write HDR_MATCH. -/
theorem bodyOf_hdrMatch (p : Params) (i : Instr) (s : State) :
    (bodyOf p i s).status.hdrMatch = s.status.hdrMatch ∨ (∃ n, i = .decode n) ∨
      (i = .xfer ∧ (bodyOf p i s).status.hdrMatch = false) := by
  cases i <;> simp [bodyOf, buildBody, xferBody, verifyBody, writeCrcIfAny_eq]

/-- R23, R24: of the commands only XFER writes TIMEOUT and OVF, and it clears both. -/
theorem bodyOf_timeout_ovf (p : Params) (i : Instr) (s : State) :
    ((bodyOf p i s).status.timeout = s.status.timeout ∧ (bodyOf p i s).status.ovf = s.status.ovf) ∨
      (i = .xfer ∧ (bodyOf p i s).status.timeout = false ∧ (bodyOf p i s).status.ovf = false) := by
  by_cases hx : i = .xfer
  · exact .inr ⟨hx, hx ▸ rfl, hx ▸ rfl⟩
  · obtain ⟨_, _, _, _, st, hbody, -, -, -, htimeout, hovf⟩ := bodyOf_frame p i hx s
    exact .inl (by rw [hbody]; exact ⟨htimeout, hovf⟩)

/-- R23, R97: the sequencer writes TIMEOUT at the check that finds the bound reached. -/
theorem coreStep_timeout (p : Params) (s : State) :
    (coreStep p s).status.timeout = s.status.timeout ∨
      (s.fsm = .check ∧ s.k = s.xferChecks ∧ (coreStep p s).status.timeout = true) := by
  rcases coreStep_cases p s with ⟨-, h⟩ | ⟨i, -, h⟩ | ⟨hf, hk, h⟩ | ⟨-, -, -, h⟩ | ⟨-, -, -, h⟩ | ⟨-, -, h⟩ |
    ⟨-, b, rest, -, -, h⟩ | ⟨-, b, rest, -, -, h⟩ | ⟨-, -, h⟩
  on_goal 3 => exact .inr ⟨hf, hk, by simp [h]⟩
  all_goals exact .inl (by simp [h])

/-- R24, R99: the sequencer writes OVF at a drain step that finds RX full. -/
theorem coreStep_ovf (p : Params) (s : State) :
    (coreStep p s).status.ovf = s.status.ovf ∨
      (s.fsm = .drain ∧ p.rxCap ≤ s.rxLen.toNat ∧ (coreStep p s).status.ovf = true) := by
  rcases coreStep_cases p s with ⟨-, h⟩ | ⟨i, -, h⟩ | ⟨-, -, h⟩ | ⟨-, -, -, h⟩ | ⟨-, -, -, h⟩ | ⟨-, -, h⟩ |
    ⟨-, b, rest, -, -, h⟩ | ⟨hf, b, rest, -, hfull, h⟩ | ⟨-, -, h⟩
  on_goal 8 => exact .inr ⟨hf, hfull, by simp [h]⟩
  all_goals exact .inl (by simp [h])

/-- Settles O44: one flag after the other, for a command and for a step of the sequencer. -/
theorem flagsAreWrittenOnlyByTheirCommands : Obligations.FlagsAreWrittenOnlyByTheirCommands := by
  intro s t h hreset runs
  rcases step_results h with hs | ⟨hb, i, h', -, ha, rfl⟩ | ⟨hcore, rfl⟩ | ⟨l, hl, -⟩
  · exact ⟨.inl hs.valid, .inl hs.hdrMatch, .inl hs.timeout, .inl hs.ovf⟩
  · have hruns : runs i := ⟨ha, hb⟩
    refine ⟨?_, ?_, ?_, ?_⟩
    · rcases bodyOf_valid Config.hw i (accept (popEvent s)) with hv | rfl | ⟨n, rfl⟩ | ⟨rfl, hv⟩
      · exact .inl (by simpa using hv)
      · exact .inr (.inl hruns)
      · exact .inr (.inr (.inl ⟨n, hruns⟩))
      · exact .inr (.inr (.inr ⟨hruns, hv⟩))
    · rcases bodyOf_hdrMatch Config.hw i (accept (popEvent s)) with hm | ⟨n, rfl⟩ | ⟨rfl, hm⟩
      · exact .inl (by simpa using hm)
      · exact .inr (.inl ⟨n, hruns⟩)
      · exact .inr (.inr ⟨hruns, hm⟩)
    · rcases bodyOf_timeout_ovf Config.hw i (accept (popEvent s)) with ⟨htimeout, -⟩ | ⟨rfl, htimeout, -⟩
      · exact .inl (by simpa using htimeout)
      · exact .inr (.inl ⟨hruns, htimeout⟩)
    · rcases bodyOf_timeout_ovf Config.hw i (accept (popEvent s)) with ⟨-, hovf⟩ | ⟨rfl, -, hovf⟩
      · exact .inl (by simpa using hovf)
      · exact .inr (.inl ⟨hruns, hovf⟩)
  · refine ⟨.inl (by simp [coreStep_frame]), .inl (by simp [coreStep_frame]), ?_, ?_⟩
    · rcases coreStep_timeout Config.hw (popEvent s) with htimeout | ⟨hf, hk, htimeout⟩
      · exact .inl (by simpa using htimeout)
      · exact .inr (.inr ⟨hcore, by simpa using hf, by simpa using hk, htimeout⟩)
    · rcases coreStep_ovf Config.hw (popEvent s) with hovf | ⟨hf, hfull, hovf⟩
      · exact .inl (by simpa using hovf)
      · exact .inr (.inr ⟨hcore, by simpa using hf, by simpa using hfull, hovf⟩)
  · exact absurd ⟨l, hl⟩ hreset

end Sys2Proof.Machine
end

section
/-! PROOFS. The STATUS word and the reset values (spec/10_state.md R19, R27, R41; spec/20_memory.md R47). -/

namespace Sys2Proof.Machine

@[simp] theorem flagBit_getElem (b : Bool) (n : Nat) {i : Nat} (hi : i < 32) :
    (flagBit b n)[i] = (b && decide (i = n)) := by
  cases b
  · simp [flagBit]
  · simp only [flagBit, if_true, BitVec.getElem_shiftLeft, BitVec.getElem_one, Bool.true_and]
    grind

/-- R19: bits 7:0 of STATUS. -/
theorem Status.word_getElem_low (t : Status) {i : Nat} (hi : i < 8) :
    t.word[i] =
      (t.busy && decide (i = 0) || t.done && decide (i = 1) || t.valid && decide (i = 2) || t.timeout && decide (i = 3) ||
        t.ovf && decide (i = 4) || t.hdrMatch && decide (i = 5) || t.rejected && decide (i = 6)) := by
  simp [Status.word, hi]

/-- R19, R27: above bit 7 there is only ERR. -/
theorem Status.word_getElem_high (t : Status) {i : Nat} (hi : i < 32) (h8 : 8 ≤ i) :
    t.word[i] = t.err.code.getLsbD (i - 8) := by
  have hne (n : Nat) (hn : n < 8) : i ≠ n := by omega
  simp [Status.word, h8, hne]

/-- R19, R27: bits 11:8 hold the error code. -/
theorem Status.word_err (t : Status) : t.word.extractLsb' 8 4 = t.err.code := by
  ext i hi
  rw [BitVec.getElem_extractLsb', BitVec.getLsbD_eq_getElem (by omega), t.word_getElem_high (by omega) (by omega),
    Nat.add_sub_cancel_left, BitVec.getLsbD_eq_getElem hi]

/-- R19: bits 31:12 are reserved and read 0. -/
theorem Status.word_reserved (t : Status) : t.word.extractLsb' 12 20 = 0#20 := by
  ext i hi
  rw [BitVec.getElem_extractLsb', BitVec.getLsbD_eq_getElem (by omega), t.word_getElem_high (by omega) (by omega),
    BitVec.getLsbD_of_ge _ _ (by omega), BitVec.getElem_zero]

/-- R41: no flag and no error code is set at reset. -/
theorem reset_word : State.reset.status.word = 0x00000000#32 := by decide

/-- Settles O16: the flags by `Status.word_getElem_low`, the accesses by the registers that stand at offset 0x004. -/
theorem statusWordLayout : Obligations.StatusWordLayout := by
  refine ⟨fun t => ?bits, ⟨rfl, rfl, rfl, rfl, rfl, rfl⟩, reset_word, fun s v es hr => ⟨?read, ?write⟩⟩
  case bits => simp [t.word_getElem_low, t.word_err, t.word_reserved]
  case read =>
    exact hostAccess_read (p := Config.hw) (a := { bits := 32, off := 0x004, kind := .read }) (by decide) hr rfl
  case write => exact (stepAt_hostWr v es hr (by decide) (by decide)).trans rfl

/-- Settles O1: each value of R41 is the field `State.resetAt` gives it; no byte of RX is listed. -/
theorem resetLeavesTheTableValues : Obligations.ResetLeavesTheTableValues :=
  ⟨by constructor <;> rfl, reset_word, fun _ _ => ⟨rfl, rfl⟩⟩

end Sys2Proof.Machine
end

section
/-! PROOFS. The host register window of this hardware (spec/20_memory.md R42 to R50): what stands at an offset, and the host
accesses there. -/

namespace Sys2Proof.Machine

variable {s : State} {off : Nat} {r : Reg}

/-! ### The map -/

/-- R43, R44: an aligned offset of the 2 KiB window, and the register there. -/
abbrev StandsAt (r : Reg) (off : Nat) : Prop := regAt Config.hw off = r ∧ off % 4 = 0 ∧ off < 0x800

theorem standsAt_tx (i : Fin 8) : StandsAt (.tx i) (0x040 + 4 * i.val) :=
  ⟨regAt_tx _ i, by omega, by omega⟩

theorem standsAt_val {j : Nat} (hj : j < 16) : StandsAt (.val j) (0x080 + 4 * j) :=
  ⟨regAt_val hj, by omega, by omega⟩

theorem standsAt_rx {i : Nat} (hi : i < 256) : StandsAt (.rx i) (0x400 + 4 * i) :=
  ⟨regAt_rx hi (by decide), by omega, by omega⟩

theorem lowReg_reserved (h : 0x02C ≤ off) : lowReg off = .reserved := by
  unfold lowReg
  repeat rw [if_neg (by omega)]

/-- R43: the reserved ranges between the registers and TX, between TX and VAL, between VAL and RX. -/
theorem regAt_reserved {p : Params}
    (h : (0x02C ≤ off ∧ off < 0x040) ∨ (0x060 ≤ off ∧ off < 0x080) ∨ (0x080 + 4 * p.valCap ≤ off ∧ off < 0x400)) :
    regAt p off = .reserved := by
  unfold regAt
  rcases h with ⟨hlo, hhi⟩ | ⟨hlo, hhi⟩ | ⟨hlo, hhi⟩
  · rw [if_pos hhi, lowReg_reserved hlo]
  · rw [if_neg (by omega), dif_neg (by omega), if_pos hhi]
  · rw [if_neg (by omega), dif_neg (by omega), if_neg (by omega), if_neg (by omega), if_pos hhi]

/-! ### Reads -/

/-- No register shows the moves to come. -/
theorem readReg_todo (s : State) (es : List Event) (r : Reg) : readReg (s.todo es) r = readReg s r := by
  cases r <;> rfl

/-- R47, R49, R50: a read of a register outside reset, with BUSY = 0 or 1. -/
theorem step_hostRd (h : StandsAt r off) (es : List Event) (hr : s.resetLine = false) :
    step (s.doing (hostRd off) es) = .next { s.todo es with readLog := s.readLog ++ [readReg s r] } := by
  obtain ⟨rfl, hal, hwin⟩ := h
  rw [← readReg_todo s es]
  exact hostAccess_read (decide_eq_true ⟨rfl, hal, hwin⟩) hr rfl

/-- Settles O15: each value is what `readReg` gives for the register that stands at the offset. -/
theorem hostReadReturnsTheRegister : Obligations.HostReadReturnsTheRegister := by
  intro s es hr returns
  have reads (r : Reg) {off : Nat} (h : StandsAt r off) : returns off (readReg s r) := step_hostRd h es hr
  exact ⟨reads .cmd (by decide), reads .status (by decide), reads .crc (by decide), reads .reqAddr (by decide),
    reads .reqFunc (by decide), reads .reqReg (by decide), reads .reqVal (by decide), reads .xferChecks (by decide),
    reads .xferDelay (by decide), reads .rxLen (by decide), reads .valCount (by decide),
    fun i => reads (.tx i) (standsAt_tx i), fun j hj => reads (.val j) (standsAt_val hj),
    fun i hi => reads (.rx i) (standsAt_rx hi), fun off h hal => reads .reserved ⟨regAt_reserved h, hal, by omega⟩⟩

/-! ### Writes -/

/-- R46, R47: an idle write to a RW register performs the store that register has. -/
theorem step_hostWr_rw {v : Word} {store : State → State} (h : StandsAt r off)
    (hrw : ∀ u, writeReg Config.hw r v u = .next (writeRw store u)) (es : List Event) (hb : s.status.busy = false)
    (hr : s.resetLine = false) : step (s.doing (hostWr off v) es) = .next (store (s.todo es)) := by
  obtain ⟨rfl, hal, hwin⟩ := h
  calc step (s.doing (hostWr off v) es)
    _ = writeReg Config.hw (regAt Config.hw off) v (s.todo es) := stepAt_hostWr v es hr hal hwin
    _ = .next (writeRw store (s.todo es)) := hrw _
    _ = .next (store (s.todo es)) := congrArg _ (writeRw_idle store hb)

/-- R45, R47: from VAL_COUNT up to RX a write changes nothing, with BUSY = 0 or 1. -/
theorem step_hostWr_readOnly (v : Word) (es : List Event) (hr : s.resetLine = false) (h1 : 0x028 ≤ off) (h2 : off < 0x400)
    (hal : off % 4 = 0) : step (s.doing (hostWr off v) es) = .next (s.todo es) := by
  refine (stepAt_hostWr v es hr hal (h2.trans (by decide))).trans ?_
  rcases regAt_readOnly (p := Config.hw) h1 h2 with h | ⟨i, h⟩ | ⟨j, h⟩ | h <;> rw [h] <;> rfl

/-- R46: an idle write to RX[i] stores its low byte there. -/
theorem step_hostWr_rx (v : Word) (es : List Event) (hb : s.status.busy = false) (hr : s.resetLine = false) {i : Nat}
    (hi : i < 256) : step (s.doing (hostWr (0x400 + 4 * i) v) es) = .next (writeRx i (v.extractLsb' 0 8) (s.todo es)) := by
  rw [step_hostWr_rw (standsAt_rx hi) (fun _ => rfl) es hb hr, BitVec.setWidth_eq_extractLsb' (by decide)]

/-- Settles O14: the store of each RW register, RX_LEN apart (`writeRxLen_eq`); from offset 0x028 to RX nothing is stored. -/
theorem idleWriteStoresTheUsedBits : Obligations.IdleWriteStoresTheUsedBits := by
  intro s v es hb hr
  have lowBits {n : Nat} (hn : n ≤ 32) : v.extractLsb' 0 n = v.setWidth n := (BitVec.setWidth_eq_extractLsb' hn).symm
  have stores (r : Reg) {off : Nat} {store : State → State} (h : StandsAt r off)
      (hrw : ∀ u, writeReg Config.hw r v u = .next (writeRw store u)) := step_hostWr_rw h hrw es hb hr
  have rxLen := (stepAt_hostWr_rxLen (p := Config.hw) v es hb hr).trans (congrArg _ (writeRxLen_eq _ v _))
  refine ⟨?_, ?_, ?_, ?_, ?_, ?_, ?_, fun hfits => ?rxLenFits,
    fun hlong => ?rxLenAbove, fun i hi => ?rx, fun off => step_hostWr_readOnly v es hr⟩
  case rxLenFits => exact rxLen.trans (congrArg _ (if_pos hfits))
  case rxLenAbove => exact rxLen.trans (congrArg _ (if_neg hlong.not_ge))
  case rx =>
    exact ⟨_, step_hostWr_rx v es hb hr hi, rxByte_writeRx_same _ i _, fun j hj => rxByte_writeRx_other _ i j _ hj, rfl⟩
  all_goals rw [lowBits (by decide)]
  exacts [stores .crc (by decide) fun _ => rfl, stores .reqAddr (by decide) fun _ => rfl,
    stores .reqFunc (by decide) fun _ => rfl, stores .reqReg (by decide) fun _ => rfl,
    stores .reqVal (by decide) fun _ => rfl, stores .xferChecks (by decide) fun _ => rfl,
    stores .xferDelay (by decide) fun _ => rfl]

/-! ### The window in the host's own map -/

/-- R42: the window stands at P_BASE. -/
theorem busAccess_pBase_add (p : Params) (a : Access) (s : State) :
    busAccess p a.bits (Config.pBase + a.off) a.kind s = hostAccess p a s := by
  rw [busAccess, if_neg (Nat.le_add_right _ _).not_gt, Nat.add_sub_cancel_left]

/-- Settles O12: the two moves are the same access. -/
theorem busAccessIsTheWindowAccess : Obligations.BusAccessIsTheWindowAccess :=
  fun s a es => busAccess_pBase_add Config.hw a (s.todo es)

end Sys2Proof.Machine
end

section
/-! PROOFS. The command word (spec/30_encoding.md R59 to R61, R68, R70): the legal words are the encodings of the well-formed
commands, and which words are illegal. -/

namespace Sys2Proof

variable {p : Params} {w : Word} {i : Instr}

/-! ### Legal words -/

/-- R60, R61: a well-formed command is what its own OP and IMM8 stand for. -/
theorem decodeOp_op_imm8 (hw : i.wf p = true) : decodeOp p i.op i.imm8 = .ok i := by
  cases i with
  | decode n => exact if_pos hw
  | _ => rfl

theorem decode_encode (hw : i.wf p = true) : decode p (encode i) = .ok i := by
  obtain ⟨hop, hrsv0, himm8, hrsv1⟩ := Laws.Fields.of_encode i
  rw [decode, if_neg (not_not.2 hrsv0), if_neg (not_not.2 hrsv1), hop, himm8, decodeOp_op_imm8 hw]

/-- Settles O7: the fields of `encode i` are those of i, and `decodeOp` gives i back for them. -/
theorem decodeOfEncodeIsTheCommand : Obligations.DecodeOfEncodeIsTheCommand := fun _ _ => decode_encode

theorem decode_eq_ok_iff : decode p w = .ok i ↔ w = encode i ∧ i.wf p = true :=
  ⟨fun h => ⟨(Machine.encode_of_decode h).symm, Machine.wf_of_decode h⟩, fun ⟨hw, hwf⟩ => hw ▸ decode_encode hwf⟩

/-- R70: a command's word as a number. -/
theorem eq_encode_iff : w = encode i ↔ w.toNat = i.op.toNat + i.imm8.toNat * 0x100 := by
  rw [← BitVec.toNat_inj, encode_toNat]

theorem encode_eq_ofNat (i : Instr) : encode i = BitVec.ofNat 32 (i.op.toNat + i.imm8.toNat * 256) := by
  rw [← encode_toNat, BitVec.ofNat_toNat, BitVec.setWidth_eq]

theorem decode_eq_ok_iff_of_wf (hw : i.wf p = true) : decode p w = .ok i ↔ w = encode i :=
  decode_eq_ok_iff.trans (and_iff_left hw)

/-- Settles O8: each pattern is `encode` of its command; only DECODE's operand has a bound. -/
theorem legalWordsAreThePatterns : Obligations.LegalWordsAreThePatterns := by
  refine fun p w => ⟨decode_eq_ok_iff_of_wf rfl, fun b => ?crcByte, decode_eq_ok_iff_of_wf rfl, decode_eq_ok_iff_of_wf rfl,
    decode_eq_ok_iff_of_wf rfl, fun n => ?decode⟩
  case crcByte => exact (decode_eq_ok_iff_of_wf rfl).trans eq_encode_iff
  case decode => exact decode_eq_ok_iff.trans (and_congr eq_encode_iff decide_eq_true_iff)

/-! ### Illegal words -/

theorem withoutOperand_error_iff {imm : Byte} : (∃ e, withoutOperand imm i = .error e) ↔ imm ≠ 0#8 := by
  rw [withoutOperand]
  split_ifs with h <;> simp [h]

/-- R68 for a word whose reserved fields are 0, by its OP. -/
theorem decodeOp_error_iff {op : BitVec 4} {imm : Byte} : (∃ e, decodeOp p op imm = .error e) ↔
    (op.toNat = 0 ∨ 7 ≤ op.toNat) ∨
      ((op.toNat = 1 ∨ op.toNat = 3 ∨ op.toNat = 4 ∨ op.toNat = 5) ∧ imm.toNat ≠ 0) ∨
      (op.toNat = 6 ∧ (imm.toNat = 0 ∨ p.valCap < imm.toNat)) := by
  have hnoOperand (i : Instr) : (∃ e, withoutOperand imm i = .error e) ↔ imm.toNat ≠ 0 :=
    withoutOperand_error_iff.trans (not_congr BitVec.toNat_inj.symm)
  unfold decodeOp
  split_ifs with h1 h2 h3 h4 h5 h6 hwf
  case pos => simp [h1, hnoOperand]
  case pos => simp [h2]
  case pos => simp [h3, hnoOperand]
  case pos => simp [h4, hnoOperand]
  case pos => simp [h5, hnoOperand]
  case pos =>
    have hcount : 1 ≤ imm.toNat ∧ imm.toNat ≤ p.valCap := of_decide_eq_true hwf
    have hop : op.toNat = 6 := congrArg BitVec.toNat h6
    exact iff_of_false nofun (by omega)
  case neg =>
    have hcount : ¬(1 ≤ imm.toNat ∧ imm.toNat ≤ p.valCap) := fun h => hwf (decide_eq_true h)
    have hop : op.toNat = 6 := congrArg BitVec.toNat h6
    exact iff_of_true ⟨_, rfl⟩ (by omega)
  case neg =>
    simp only [← BitVec.toNat_inj, BitVec.toNat_ofNat] at h1 h2 h3 h4 h5 h6
    exact iff_of_true ⟨_, rfl⟩ (by omega)

theorem decode_error_iff : (∃ e, decode p w = .error e) ↔
    fieldRsv0 w ≠ 0#4 ∨ fieldRsv1 w ≠ 0#16 ∨ ∃ e, decodeOp p (fieldOp w) (fieldImm8 w) = .error e := by
  rw [decode]
  split_ifs with h0 h1 <;> simp [*]

end Sys2Proof
end

section
/-! PROOFS. Command words written by the host, directly and from a script line (spec/30_encoding.md R68, R73, R74). -/

namespace Sys2Proof.Machine

variable {s : State} {p : Params} {w : Word}

theorem submit_illegal {e : DecodeError} (h : decode p w = .error e) (hb : s.status.busy = false) :
    submit p w s = .next (illegalCommand s) := by
  simp [submit, hb, h]

theorem submit_legal {i : Instr} (h : decode p w = .ok i) (hb : s.status.busy = false) :
    submit p w s = execAt p i s := by
  simp [submit, hb, h]

/-- R18, R74: a write to CMD outside reset submits its word. -/
theorem step_hostWr_cmd (w : Word) (es : List Event) (hr : s.resetLine = false) :
    step (s.doing (hostWr 0x000 w) es) = submit Config.hw w (s.todo es) :=
  stepAt_hostWr w es hr (by decide) (by decide)

/-- Settles O9: R68 by `decode_error_iff` and `decodeOp_error_iff` over the fields as numbers; R110 by `submit_illegal`. -/
theorem illegalWordsAreReported : Obligations.IllegalWordsAreReported := by
  refine ⟨fun p w => ?illegal, fun s w e es he hb hr => ?reported⟩
  case illegal =>
    rw [decode_error_iff, decodeOp_error_iff, ne_eq, ne_eq, ← BitVec.toNat_inj, ← BitVec.toNat_inj, fieldRsv0_toNat,
      fieldRsv1_toNat, fieldOp_toNat, fieldImm8_toNat]
    simp only [BitVec.toNat_ofNat]
    tauto
  case reported => exact (step_hostWr_cmd w es hr).trans (submit_illegal (s := s.todo es) he hb)

/-- Settles O11: the write submits its word, and a legal one runs its command. -/
theorem stepRunsTheDecodedCommand : Obligations.StepRunsTheDecodedCommand := by
  intro s w i es hi hb hr
  calc step (s.doing (hostWr 0x000 w) es)
    _ = submit Config.hw w (s.todo es) := step_hostWr_cmd w es hr
    _ = execAt Config.hw i (s.todo es) := submit_legal hi hb
    _ = exec i (s.todo es) := execAt_hw i _

/-! ### Script statements -/

variable {es : List Event} {h : HostAgent}

/-- R72: a `wr` writes a value of 32 bits as it is. -/
theorem scriptWord_toNat (w : Word) : scriptWord w.toNat = w := by
  rw [scriptWord, if_pos w.isLt, BitVec.ofNat_toNat, BitVec.setWidth_eq]

theorem step_script (hs : s.schedule = .script :: es) : step s = scriptStep Config.hw (s.todo es) := step_cons s _ es hs

/-- A script step that changes the host alone. -/
theorem step_script_own (hs : s.schedule = .script :: es) (ha : hostAction Config.hw s.host = .own h) :
    step s = .next { s with schedule := es, host := h } := by
  rw [step_script hs, scriptStep, ha]

/-- A script step that makes an access. -/
theorem step_script_access {a : Access} {dest : Option Var} {t : State} (hs : s.schedule = .script :: es)
    (ha : hostAction Config.hw s.host = .access a dest) (ht : hostAccess Config.hw a (s.todo es) = .next t) :
    step s = .next (hostAfterAccess dest t) := by
  rw [step_script hs, scriptStep, ha]
  simp only [ht]

/-- R47, R72: `rd STATUS -> x` assigns the STATUS word to x. -/
theorem step_script_rd_status {x : Var} (hs : s.schedule = .script :: es) (hr : s.resetLine = false)
    (ha : hostAction Config.hw s.host = .access { bits := 32, off := 0x004, kind := .read } (some x)) :
    step s = .next { s with
      schedule := es
      readLog := s.readLog ++ [s.status.word]
      host := { s.host with pc := s.host.pc + 1, vars := sparseWrite s.host.vars x s.status.word.toNat } } := by
  rw [step_script_access hs ha (hostAccess_read (by decide) hr rfl)]
  simp only [hostAfterAccess, List.getLastD_concat]
  rfl

/-! ### A command on a script line -/

/-- No command writes the host. -/
theorem bodyOf_host (p : Params) (i : Instr) (s : State) : (bodyOf p i s).host = s.host := by
  rcases eq_or_ne i .xfer with rfl | hx
  · rfl
  · obtain ⟨c, x, v, n, st, h, -⟩ := bodyOf_frame p i hx s
    rw [h]

theorem exec_keeps_host {i : Instr} (hw : i.wf Config.hw = true) (hb : s.status.busy = false) :
    ∃ t, exec i s = .next t ∧ t.host = s.host :=
  ⟨_, exec_idle hw hb, bodyOf_host ..⟩

theorem hostAction_command {i : Instr} {line : Nat} (hst : h.program[h.pc]? = (Line.expand line (.command i)).head?) :
    hostAction p h = .access (cmdWrite (encode i)) none := by
  rw [hostAction, hst]
  simp [Line.expand, wrAction, RegName.offsetOf, Expr.eval, scriptWord_toNat, cmdWrite]

/-- Settles O52: the statement writes `encode i` to CMD, which decodes to i; the command does not move the host. -/
theorem scriptCommandLineRunsTheCommand : Obligations.ScriptCommandLineRunsTheCommand := by
  intro s i line es hw hb hr hst
  obtain ⟨t, hexec, hhost⟩ := exec_keeps_host (s := s.todo es) hw hb
  have haccess : hostAccess Config.hw (cmdWrite (encode i)) (s.todo es) = .next t :=
    (stepRunsTheDecodedCommand s (encode i) i es (decode_encode hw) hb hr).trans hexec
  refine ⟨t, hexec, ?_⟩
  calc step (s.doing .script es)
    _ = .next (hostAfterAccess none t) := step_script_access rfl (hostAction_command hst) haccess
    _ = .next { t with host := { t.host with pc := s.host.pc + 1 } } := by rw [hostAfterAccess, hhost]

/-! ### A poll -/

/-- The condition of `poll`: bit 0 of its variable is 1 (R73). -/
abbrev pollCond : Cond := { cmp := .eq, left := .bits (.var pollVar) 0 0, right := .const 1 }

/-- A host at the start of a `poll`, once the poll has read the word w (`hostAction_poll_label`, `hostAction_poll_rd`). -/
abbrev HostAgent.polled (h : HostAgent) (w : Word) : HostAgent :=
  { h with pc := h.pc + 2, vars := sparseWrite h.vars pollVar w.toNat }

theorem labelIndex_append_label {l : Label} {before : List Stmt} (after : List Stmt) (hl : .label l ∉ before) :
    labelIndex l (before ++ .label l :: after) = some before.length := by
  induction before with
  | nil => simp [labelIndex]
  | cons st before ih =>
    rw [List.mem_cons, not_or] at hl
    obtain ⟨hne, hl⟩ := hl
    simp [labelIndex, Ne.symm hne, ih hl]

section
variable {before after : List Stmt} {line : Nat} (hprog : h.program = before ++ Line.expand line .poll ++ after)
include hprog

theorem program_getElem?_poll {k : Nat} (hk : k < 3) (hpc : h.pc = before.length + k) :
    h.program[h.pc]? = (Line.expand line .poll)[k]? := by
  rw [hprog, hpc, List.append_assoc, List.getElem?_append_right (by omega), Nat.add_sub_cancel_left,
    List.getElem?_append_left hk]

theorem hostAction_poll_label (hpc : h.pc = before.length) : hostAction p h = .own { h with pc := h.pc + 1 } := by
  rw [hostAction, program_getElem?_poll hprog (k := 0) (by decide) hpc]
  rfl

theorem hostAction_poll_rd (hpc : h.pc = before.length + 1) :
    hostAction p h = .access { bits := 32, off := 0x004, kind := .read } (some pollVar) := by
  rw [hostAction, program_getElem?_poll hprog (by decide) hpc]
  rfl

theorem hostAction_poll_if (hpc : h.pc = before.length + 2) (hfresh : .label (.poll line) ∉ before) :
    hostAction p h = .own { h with pc := if pollCond.holds h then before.length else before.length + 3 } := by
  have hl : labelIndex (.poll line) h.program = some before.length := by
    rw [hprog, List.append_assoc]
    exact labelIndex_append_label _ hfresh
  rw [hostAction, program_getElem?_poll hprog (by decide) hpc]
  change ifAction h pollCond (.poll line) = _
  rw [ifAction, hl]
  split_ifs <;> simp [hpc]

end

/-- R19: bit 0 of STATUS is BUSY. -/
theorem Status.word_toNat_mod_two (t : Status) : t.word.toNat % 2 = 1 ↔ t.busy = true := by
  have hbit : t.word[0] = t.busy := by simp [t.word_getElem_low]
  rw [← hbit]
  simp [BitVec.getElem_eq_testBit_toNat, Nat.testBit_zero]

theorem pollCond_holds_polled (h : HostAgent) (t : Status) : pollCond.holds (h.polled t.word) = t.busy := by
  simp [Cond.holds, Expr.eval, scriptVar, sparseRead_sparseWrite_same, t.word_toNat_mod_two]

theorem runFor_of_step {t : State} (n : Nat) (hst : step s = .next t) : runFor (n + 1) s = runFor n t := by
  rw [runFor, hst]

/-- Settles O53: the label, the read and the `if` in turn; the `if` looks at the word the read returned. -/
theorem pollRepeatsWhileBusy : Obligations.PollRepeatsWhileBusy := by
  intro s before after line es hr hprog hfresh hpc
  have hlabel := step_script_own (s := s.todo (.script :: .script :: .script :: es)) rfl (hostAction_poll_label hprog hpc)
  have hread := step_script_rd_status
    (s := { s.todo (.script :: .script :: es) with host := { s.host with pc := s.host.pc + 1 } }) rfl hr
    (hostAction_poll_rd hprog (by simp [hpc]))
  have hif := step_script_own
    (s := { s.todo (.script :: es) with host := s.host.polled s.status.word, readLog := s.readLog ++ [s.status.word] })
    rfl (hostAction_poll_if hprog (by simp [hpc]) hfresh)
  refine ⟨_, (runFor_of_step 2 hlabel).trans ((runFor_of_step 1 hread).trans (runFor_of_step 0 hif)), ?_, rfl⟩
  simp only [pollCond_holds_polled]

end Sys2Proof.Machine
end

section
/-! PROOFS. The assembler text of the commands (spec/30_encoding.md R71). -/

namespace Sys2Proof.Machine

/-! ### Words of a line -/

/-- A character the assembler takes as it is: no separator, and not in upper case. -/
abbrev PlainChar (c : Char) : Prop := (c ≠ ' ' ∧ c ≠ '\t') ∧ c.toLower = c

theorem lineWords_plain_append {m : List Char} (hm : ∀ c ∈ m, PlainChar c) (cs cur : List Char) :
    lineWords (m ++ cs) cur = lineWords cs (m.reverse ++ cur) := by
  induction m generalizing cur with
  | nil => rfl
  | cons c m ih =>
    obtain ⟨⟨hsep, hlow⟩, hm⟩ := List.forall_mem_cons.1 hm
    simp [lineWords, hsep, hlow, ih hm]

theorem lineWords_nil {cur : List Char} (hne : cur ≠ []) : lineWords [] cur = [cur.reverse] := by
  obtain ⟨x, xs, rfl⟩ := List.exists_cons_of_ne_nil hne
  rfl

theorem lineWords_space {cur : List Char} (hne : cur ≠ []) (cs : List Char) :
    lineWords (' ' :: cs) cur = cur.reverse :: lineWords cs [] := by
  obtain ⟨x, xs, rfl⟩ := List.exists_cons_of_ne_nil hne
  rfl

/-- A mnemonic, one space, an operand. -/
theorem lineWords_two {m n : List Char} (hm : ∀ c ∈ m, PlainChar c) (hn : ∀ c ∈ n, PlainChar c) (hmne : m ≠ [])
    (hnne : n ≠ []) : lineWords (m ++ ' ' :: n) [] = [m, n] := by
  have hnil : lineWords n [] = [n] := by
    simpa [lineWords_nil (List.reverse_ne_nil_iff.2 hnne)] using lineWords_plain_append hn [] []
  rw [lineWords_plain_append hm, List.append_nil, lineWords_space (List.reverse_ne_nil_iff.2 hmne), List.reverse_reverse, hnil]

/-! ### Operands -/

theorem hexChar_plain : ∀ n < 16, PlainChar (hexChar n) := by decide

theorem hexDigit_hexChar : ∀ n < 16, hexDigit (hexChar n) = some n := by decide

theorem hexByte_plain (b : Byte) : ∀ c ∈ hexByte b, PlainChar c := by
  have hb := b.isLt
  have hhi := hexChar_plain (b.toNat / 16) (by omega)
  have hlo := hexChar_plain (b.toNat % 16) (by omega)
  simp only [hexByte, List.forall_mem_cons]
  exact ⟨by decide, by decide, hhi, hlo, List.forall_mem_nil _⟩

theorem parseImm8_hexByte (b : Byte) : parseImm8 (hexByte b) = some b := by
  have hb := b.isLt
  have hhi := hexDigit_hexChar (b.toNat / 16) (by omega)
  have hlo := hexDigit_hexChar (b.toNat % 16) (by omega)
  have hval : (0 * 16 + b.toNat / 16) * 16 + b.toNat % 16 = b.toNat := by omega
  have hnum : parseNumber (hexByte b) = some b.toNat := by
    simp only [hexByte, parseNumber, digits, hhi, hlo, hval]
  simp only [parseImm8, hnum, if_pos hb, BitVec.ofNat_toNat, BitVec.setWidth_eq]

/-! ### Lines -/

theorem assemble_hexByte {m : List Char} (hm : ∀ c ∈ m, PlainChar c) (hne : m ≠ []) (b : Byte) :
    assemble (m ++ ' ' :: hexByte b) = (assembleWords [m, hexByte b]).map encode := by
  rw [assemble, lineWords_two hm (hexByte_plain b) hne (List.cons_ne_nil _ _)]

/-- Settles O54: a line without an operand is evaluated; one with an operand is read back by `parseImm8_hexByte`. -/
theorem assembledLinesAreTheWords : Obligations.AssembledLinesAreTheWords := by
  refine ⟨by decide, by decide, by decide, by decide, fun b => ?crcByte, fun n => ?decode⟩
  case crcByte =>
    calc assemble (['c', 'r', 'c', '.', 'b', 'y', 't', 'e'] ++ ' ' :: hexByte b)
      _ = ((parseImm8 (hexByte b)).map Instr.crcByte).map encode := assemble_hexByte (by simp [PlainChar]) (by decide) b
      _ = some (encode (.crcByte b)) := by rw [parseImm8_hexByte]; rfl
      _ = some (BitVec.ofNat 32 (2 + b.toNat * 256)) := congrArg some (encode_eq_ofNat _)
  case decode =>
    calc assemble (['d', 'e', 'c', 'o', 'd', 'e'] ++ ' ' :: hexByte n)
      _ = ((parseImm8 (hexByte n)).map Instr.decode).map encode := assemble_hexByte (by simp [PlainChar]) (by decide) n
      _ = some (encode (.decode n)) := by rw [parseImm8_hexByte]; rfl
      _ = some (BitVec.ofNat 32 (6 + n.toNat * 256)) := congrArg some (encode_eq_ofNat _)

end Sys2Proof.Machine
end

section
/-! PROOFS. The CRC commands (spec/40_crc.md R77, R78): what they do, and what they leave unchanged. -/

namespace Sys2Proof.Machine

variable {s t : State} {i : Instr}

/-- R74, R111: a command that meets a busy core is refused. -/
theorem exec_busy (i : Instr) (hb : s.status.busy = true) : exec i s = .next (reject s) := by
  rw [exec_eq_command, command_busy _ _ hb]

/-! ### The frame -/

/-- R77, R78: a CRC command is always well formed; accepted, it writes CRC and completes with OK. -/
theorem bodyOf_crcCommand (p : Params) (hi : i = .crcInit ∨ ∃ b, i = .crcByte b) (s : State) :
    i.wf p = true ∧ ∃ c, bodyOf p i s = complete .ok (writeCrc c s) := by
  rcases hi with rfl | ⟨b, rfl⟩
  · exact ⟨rfl, Config.crcInit, rfl⟩
  · exact ⟨rfl, crc16Step s.crc b, rfl⟩

/-- A CRC command is refused by a busy core; an idle one writes CRC and completes with OK. -/
theorem exec_crcCommand_cases (hi : i = .crcInit ∨ ∃ b, i = .crcByte b) (h : exec i s = .next t) :
    (s.status.busy = true ∧ t = reject s) ∨
      (s.status.busy = false ∧ ∃ c, t = complete .ok (writeCrc c s)) := by
  cases hb : s.status.busy with
  | true =>
    rw [exec_busy i hb] at h
    cases h
    exact .inl ⟨rfl, rfl⟩
  | false =>
    obtain ⟨hw, c, hbody⟩ := bodyOf_crcCommand Config.hw hi (accept s)
    rw [exec_idle hw hb, hbody] at h
    cases h
    exact .inr ⟨rfl, c, rfl⟩

/-- Settles O46: a refusal writes REJECTED alone; a completion writes CRC, DONE and ERR, and the BUSY and fsm that it
clears were clear on an idle core. -/
theorem frameOfTheCrcCommands : Obligations.FrameOfTheCrcCommands := by
  intro i s t hi h
  rcases exec_crcCommand_cases hi h with ⟨-, rfl⟩ | ⟨hb, c, rfl⟩
  · exact ⟨rfl, rxByte_congr rfl rfl, fun _ => rfl⟩
  · refine ⟨?frame, rxByte_congr rfl rfl, fun hinv => (hinv.fsm_of_not_busy hb).symm⟩
    case frame => simp [complete, writeCrc, hb]

/-! ### CRC_INIT -/

/-- R68: the word of OP 1 with an operand is illegal. -/
theorem decode_crcInit_operand (p : Params) {imm : Byte} (himm : imm ≠ 0#8) :
    ∃ e, decode p (0x00000001#32 ||| (imm.setWidth 32 <<< 8)) = .error e := by
  have hword : (0x00000001#32 ||| (imm.setWidth 32 <<< 8)).toNat = 1 + imm.toNat * 256 := word_toNat 1#4 imm
  have hne : imm.toNat ≠ 0 := fun h => himm (BitVec.eq_of_toNat_eq h)
  have hlt : imm.toNat < 256 := imm.isLt
  obtain ⟨hillegal, -⟩ := illegalWordsAreReported
  rw [hillegal, hword]
  omega

/-- Settles O18: idle, it is `exec_idle`; busy, `exec_busy`; its word with an operand does not decode, and
`illegalWordsAreReported` says what becomes of such a word. -/
theorem crcInitResult : Obligations.CrcInitResult := by
  refine ⟨fun s hb => exec_idle rfl hb, fun s hb => exec_busy .crcInit hb, fun s imm es himm hb hr => ?operand⟩
  case operand =>
    obtain ⟨e, he⟩ := decode_crcInit_operand Config.hw himm
    obtain ⟨-, hreported⟩ := illegalWordsAreReported
    exact hreported s _ e es he hb hr

end Sys2Proof.Machine
end

section
/-! PROOFS. What BUILD, VERIFY and DECODE read (spec/41_frame_codec.md R79), and so what any submitted command does
(spec/30_encoding.md R74, spec/60_exceptions.md R109 to R111). -/

namespace Sys2Proof.Machine

variable {s t : State} {i : Instr}

/-! ### The reads of VERIFY and DECODE -/

/-- VERIFY as one record update (R84). -/
theorem verifyBody_eq (p : Params) (s : State) :
    verifyBody p s =
      { s with
        crc := (checkRx p s).2.getD s.crc
        status := { s.status.finished (checkRx p s).1 with valid := decide ((checkRx p s).1 = .ok) }
        fsm := .idle } := by
  rw [verifyBody, writeCrcIfAny_eq]
  rfl

/-- R85: the values and the code DECODE ends with do not depend on CRC, on STATUS or on the request. -/
theorem decodeFinish_reads (n : Byte) (code : ErrCode) (s : State) :
    ∃ v k e, ∀ c a f st, decodeFinish n code { s with crc := c, reqAddr := a, reqFunc := f, status := st } =
      { s with
        crc := c, reqAddr := a, reqFunc := f, val := v, valCount := k, status := st.finished e, fsm := .idle } := by
  unfold decodeFinish
  by_cases hcode : code ≠ .ok
  · exact ⟨s.val, s.valCount, code, fun c a f st => if_pos hcode⟩
  simp only [if_neg hcode]
  by_cases hshort : s.rxLen.toNat < responseLength n
  · exact ⟨s.val, s.valCount, .lenShort, fun c a f st => if_pos hshort⟩
  · exact ⟨(writeVals ((List.range n.toNat).map (responseValue s)) s).val, BitVec.ofNat 6 n.toNat, .ok,
      fun c a f st => if_neg hshort⟩

/-- R79, R85, R86: of CRC, STATUS and the request DECODE reads the request alone, and that for HDR_MATCH. -/
theorem decodeBody_reads (p : Params) (n : Byte) (s : State) :
    ∃ v k e, ∀ c a f st, decodeBody p n { s with crc := c, reqAddr := a, reqFunc := f, status := st } =
      { s with
        crc := (checkRx p s).2.getD c, reqAddr := a, reqFunc := f, val := v, valCount := k, fsm := .idle
        status := { st.finished e with
          valid := decide ((checkRx p s).1 = .ok)
          hdrMatch := hdrMatch n { s with reqAddr := a, reqFunc := f } } } := by
  obtain ⟨v, k, e, hfinish⟩ := decodeFinish_reads n (checkRx p s).1 s
  refine ⟨v, k, e, fun c a f st => ?_⟩
  have hcheck : checkRx p { s with crc := c, reqAddr := a, reqFunc := f, status := st } = checkRx p s :=
    checkRx_congr p rfl rfl rfl
  simp only [decodeBody, hcheck, writeCrcIfAny_eq]
  exact hfinish _ a f _

/-! ### Submitting a command -/

/-- R74, R109: acceptance writes DONE alone, which no body reads and every body writes. -/
theorem bodyOf_accept (p : Params) (i : Instr) (s : State) : bodyOf p i (accept s) = bodyOf p i s := by
  cases i with
  | verify =>
    have hcheck : checkRx p (accept s) = checkRx p s := checkRx_congr p rfl rfl rfl
    simp only [bodyOf, verifyBody_eq, hcheck]
    rfl
  | decode n =>
    obtain ⟨v, k, e, hbody⟩ := decodeBody_reads p n s
    exact (hbody s.crc s.reqAddr s.reqFunc (accept s).status).trans (hbody s.crc s.reqAddr s.reqFunc s.status).symm
  | _ => rfl

/-- R74: what a well-formed command does on an idle core. -/
theorem exec_idle_body (hw : i.wf Config.hw = true) (hb : s.status.busy = false) :
    exec i s = .next (bodyOf Config.hw i s) := by
  rw [exec_idle hw hb, bodyOf_accept]

/-- R74, R110, R111: a submitted command is refused, reported as illegal, or performed. -/
theorem exec_cases (h : exec i s = .next t) :
    (s.status.busy = true ∧ t = reject s) ∨
      (s.status.busy = false ∧ i.wf Config.hw = false ∧ t = illegalCommand s) ∨
      (s.status.busy = false ∧ i.wf Config.hw = true ∧ t = bodyOf Config.hw i s) := by
  obtain ⟨u, hu, hcase⟩ := command_cases (i.wf Config.hw) (bodyOf Config.hw i) s
  rw [exec_eq_command, hu] at h
  cases h
  rwa [bodyOf_accept] at hcase

/-! ### The CRC register -/

/-- R79: whatever CRC held, BUILD, VERIFY and DECODE do the same; what they write to CRC is `o`, nothing when it is none. -/
theorem bodyOf_codec_crc (p : Params) (hi : i = .build ∨ i = .verify ∨ ∃ n, i = .decode n) (s : State) :
    ∃ o : Option Half, ∀ c, bodyOf p i { s with crc := c } = { bodyOf p i s with crc := o.getD c } := by
  rcases hi with rfl | rfl | ⟨n, rfl⟩
  · exact ⟨some (crc16 (requestHeader s)), fun c => rfl⟩
  · refine ⟨(checkRx p s).2, fun c => ?_⟩
    have hcheck : checkRx p { s with crc := c } = checkRx p s := checkRx_congr p rfl rfl rfl
    simp only [bodyOf, verifyBody_eq, hcheck]
  · obtain ⟨v, k, e, hbody⟩ := decodeBody_reads p n s
    have hs : decodeBody p n s = _ := hbody s.crc s.reqAddr s.reqFunc s.status
    exact ⟨(checkRx p s).2, fun c => (hbody c s.reqAddr s.reqFunc s.status).trans (by rw [bodyOf, hs])⟩

/-- The same of a submitted one: the refusals of R110 and R111 neither read nor write CRC. -/
theorem exec_codec_crc (hi : i = .build ∨ i = .verify ∨ ∃ n, i = .decode n) (s : State) :
    ∃ (o : Option Half) (t : State), ∀ c, exec i { s with crc := c } = .next { t with crc := o.getD c } := by
  obtain ⟨o, hbody⟩ := bodyOf_codec_crc Config.hw hi (accept s)
  simp only [exec_eq_command, command]
  split_ifs
  · exact ⟨none, reject s, fun c => rfl⟩
  · exact ⟨o, _, fun c => congrArg _ (hbody c)⟩
  · exact ⟨none, illegalCommand s, fun c => rfl⟩

/-- Settles O24: the two runs of `exec_codec_crc` from the two values of CRC, which write the same value or none. -/
theorem codecIgnoresTheCrcRegister : Obligations.CodecIgnoresTheCrcRegister := by
  intro i s c hi
  obtain ⟨o, t, hexec⟩ := exec_codec_crc hi s
  refine ⟨_, _, hexec s.crc, hexec c, rfl, ?_⟩
  cases o with
  | none => exact .inr ⟨rfl, rfl⟩
  | some x => exact .inl rfl

end Sys2Proof.Machine
end

section
/-! PROOFS. What BUILD, VERIFY and DECODE answer on an idle core (spec/41_frame_codec.md R82, R84 to R86), and the round trip
of register values through a response (spec/95_test_vectors.md S3). -/

namespace Sys2Proof.Machine

variable {s t : State}

/-! ### BUILD -/

/-- Settles O23: `requestFrame` is the header followed by its CRC, low byte first. -/
theorem buildResult : Obligations.BuildResult :=
  ⟨fun _ hb => exec_busy .build hb, fun _ hb => ⟨_, exec_idle_body rfl hb, rfl, rfl⟩⟩

/-! ### VERIFY -/

/-- Settles O25: one lemma of VERIFY's body for each outcome of the frame check. -/
theorem verifyResult : Obligations.VerifyResult := by
  intro s hb
  have hexec : exec .verify s = .next (verifyBody Config.hw s) := exec_idle_body rfl hb
  rw [hexec]
  refine ⟨fun hlen => ?short, fun hlen hcrc => ?good, fun hlen hcrc => ?mismatch⟩
  case short => rw [verifyBody_short _ hlen]; rfl
  case good => rw [verifyBody_good _ hlen hcrc]; rfl
  case mismatch => rw [verifyBody_mismatch _ hlen hcrc]; rfl

/-! ### DECODE -/

/-- R85: a DECODE with a legal count on an idle core. -/
theorem exec_decode {n : Byte} (hb : s.status.busy = false) (h1 : 1 ≤ n.toNat) (hn : n.toNat ≤ 16) :
    exec (.decode n) s = .next (decodeBody Config.hw n s) :=
  exec_idle_body (decide_eq_true ⟨h1, hn⟩) hb

/-- Settles O26: `decodeBody_reads` with the request of s and with another request. -/
theorem decodeReportsTheHeaderMatch : Obligations.DecodeReportsTheHeaderMatch := by
  intro s n hb h1 hn
  obtain ⟨v, k, e, hbody⟩ := decodeBody_reads Config.hw n s
  have hexec (a f : Byte) := (exec_decode (s := { s with reqAddr := a, reqFunc := f }) hb h1 hn).trans
    (congrArg _ (hbody s.crc a f s.status))
  refine ⟨_, hexec s.reqAddr s.reqFunc, ?hdrMatch, fun a f => ⟨_, hexec a f, rfl, rfl, rfl, rfl⟩⟩
  case hdrMatch => exact decide_eq_true_iff

/-- Settles O27: an illegal count is reported before the body runs; the body has one lemma for each of its errors. -/
theorem decodeErrorsKeepTheValues : Obligations.DecodeErrorsKeepTheValues := by
  refine fun s n hb => ⟨fun hn => ?illegal, fun h1 hn => ⟨_, exec_decode hb h1 hn, fun hlen => ?short,
    fun hlen hcrc => ?mismatch, fun hlen hcrc hshort => ?tooShort⟩⟩
  case illegal => exact (execAt_hw _ s).symm.trans (execAt_illegal (decode_wf_eq_false hn) hb)
  case short => rw [decodeBody_short _ n hlen]; rfl
  case mismatch => rw [decodeBody_mismatch _ n hlen hcrc]; rfl
  case tooShort => rw [decodeBody_tooShort _ n hlen hcrc hshort]; rfl

/-- R38, R85: writing the first n values of a response keeps the others. -/
theorem valAt_of_val_eq {n : Nat} (h : t.val = (List.range n).map (responseValue s) ++ s.val.drop n) (j : Nat) :
    valAt t j = if j < n then responseValue s j else valAt s j := by
  simp only [valAt, h]
  split_ifs with hj
  · rw [List.getD_append _ _ _ _ (by simpa using hj)]
    simp [hj]
  · rw [List.getD_append_right _ _ _ _ (by simpa using hj)]
    simp [Nat.add_sub_of_le (not_lt.1 hj)]

/-- R85: DECODE of a good frame that is long enough. -/
theorem exec_decode_good {n : Byte} (hb : s.status.busy = false) (h1 : 1 ≤ n.toNat) (hn : n.toNat ≤ 16)
    (hcrc : RxCrcGood s) (hlen : 5 + 2 * n.toNat ≤ s.rxLen.toNat) :
    exec (.decode n) s = .next { s with
      crc := rxCrc s
      val := (List.range n.toNat).map (responseValue s) ++ s.val.drop n.toNat
      valCount := BitVec.ofNat 6 n.toNat
      status := { s.status.finished .ok with valid := true, hdrMatch := hdrMatch n s }
      fsm := .idle } := by
  have hmin : 4 ≤ s.rxLen.toNat := by omega
  rw [exec_decode hb h1 hn, decodeBody_good _ n hmin hcrc hlen]
  rfl

/-- Settles O28: the values by `valAt_of_val_eq`; a count of at most 16 fits VAL_COUNT. -/
theorem decodeWritesTheValues : Obligations.DecodeWritesTheValues := by
  intro s n hb h1 hn hcrc hlen
  refine ⟨_, exec_decode_good hb h1 hn hcrc hlen, fun j hj => ?written, fun j hj => ?kept, ?count, rfl⟩
  case written =>
    rw [valAt_of_val_eq (s := s) (n := n.toNat) rfl, if_pos hj, responseValue, be16, pair, Nat.add_right_comm]
  case kept => rw [valAt_of_val_eq (s := s) (n := n.toNat) rfl, if_neg hj.not_gt]
  case count => exact Nat.mod_eq_of_lt (by omega)

/-! ### The round trip -/

/-- RX holds these bytes from its start. -/
abbrev RxHolds (s : State) (bs : List Byte) : Prop := ∀ i b, bs[i]? = some b → rxByte s i = b

theorem RxHolds.rxBytes_eq {bs : List Byte} (h : RxHolds s bs) : rxBytes s bs.length = bs := by
  apply List.ext_getElem
  · simp [rxBytes]
  · intro i hi hi'
    simpa [rxBytes] using h i _ (List.getElem?_eq_getElem hi')

theorem RxHolds.of_append {bs cs : List Byte} (h : RxHolds s (bs ++ cs)) : RxHolds s bs := fun i b hb =>
  h i b (by rw [List.getElem?_append_left (List.getElem?_eq_some_iff.1 hb).1, hb])

/-- R67, R80: a frame made by `withCrc` passes the frame check. -/
theorem RxHolds.rxCrcGood {body : List Byte} (h : RxHolds s (withCrc body)) (hlen : s.rxLen.toNat = body.length + 2) :
    RxCrcGood s := by
  have hcrc : rxCrc s = crc16 body := by
    rw [rxCrc, hlen, Nat.add_sub_cancel, h.of_append.rxBytes_eq]
  rw [RxCrcGood, hcrc, hlen]
  exact ⟨h body.length _ (by simp [withCrc, loByte]), h (body.length + 1) _ (by simp [withCrc, hiByte])⟩

theorem pair_hiByte_loByte (v : Half) : pair (hiByte v) (loByte v) = v := by
  calc pair (hiByte v) (loByte v)
    _ = v.extractLsb' 0 16 := BitVec.extractLsb'_append_extractLsb'_eq_extractLsb' (by decide)
    _ = v := BitVec.extractLsb'_eq_self

/-- R53, R65: value j stands at 2j and 2j + 1, high byte first. -/
theorem valueBytes_getElem? {vs : List Half} {j : Nat} {v : Half} (h : vs[j]? = some v) :
    (valueBytes vs)[2 * j]? = some (hiByte v) ∧ (valueBytes vs)[2 * j + 1]? = some (loByte v) := by
  induction vs generalizing j with
  | nil => simp at h
  | cons w vs ih =>
    cases j with
    | zero =>
      obtain rfl : w = v := by simpa using h
      exact ⟨rfl, rfl⟩
    | succ j => exact ih (by simpa using h)

@[simp] theorem valueBytes_length (vs : List Half) : (valueBytes vs).length = 2 * vs.length := by
  induction vs with
  | nil => rfl
  | cons v vs ih => simp [valueBytes, ih]; omega

/-- R65, R81: the values of a response are those it was built from. -/
theorem RxHolds.responseValues_eq {a f c : Byte} {vs : List Half} (h : RxHolds s (a :: f :: c :: valueBytes vs)) :
    (List.range vs.length).map (responseValue s) = vs := by
  apply List.ext_getElem
  · simp
  · intro j hj hj'
    obtain ⟨hhi, hlo⟩ := valueBytes_getElem? (List.getElem?_eq_getElem hj')
    have hrxhi : rxByte s (2 * j + 3) = hiByte vs[j] := h _ _ hhi
    have hrxlo : rxByte s (2 * j + 3 + 1) = loByte vs[j] := h _ _ hlo
    rw [List.getElem_map, List.getElem_range, responseValue, be16, Nat.add_comm 3, hrxhi, hrxlo, pair_hiByte_loByte]

/-- Settles O29: the response passes the frame check and is just long enough, and its values are vs. -/
theorem decodeRecoversTheEncodedValues : Obligations.DecodeRecoversTheEncodedValues := by
  intro s a f c vs hb h1 hn hlen (hrx : RxHolds s (withCrc (a :: f :: c :: valueBytes vs)))
  have hcount : (BitVec.ofNat 8 vs.length).toNat = vs.length := Nat.mod_eq_of_lt (by omega)
  have hcrc : RxCrcGood s := hrx.rxCrcGood (by simp only [hlen, List.length_cons, valueBytes_length]; omega)
  refine ⟨_, exec_decode_good hb (by omega) (by omega) hcrc (by omega), rfl, rfl, ?_⟩
  simp only [hcount, hrx.of_append.responseValues_eq]
  exact ⟨Nat.mod_eq_of_lt (by omega), List.take_left, List.drop_left⟩

end Sys2Proof.Machine
end

section
/-! PROOFS. What BUILD, VERIFY and DECODE leave unchanged, in every state (spec/41_frame_codec.md R82, R84, R85). -/

namespace Sys2Proof.Machine

variable {s t : State} {i : Instr}

/-- R74, R109 to R111: what every command but XFER leaves unchanged. -/
theorem exec_frame (hx : i ≠ .xfer) (h : exec i s = .next t) :
    t = { s with crc := t.crc, tx := t.tx, val := t.val, valCount := t.valCount, fsm := t.fsm
                 status := { s.status with done := t.status.done, rejected := t.status.rejected, err := t.status.err
                                           valid := t.status.valid, hdrMatch := t.status.hdrMatch } } ∧
    (∀ j, rxByte t j = rxByte s j) ∧ (Inv s → t.fsm = s.fsm) := by
  rcases exec_cases h with ⟨-, rfl⟩ | ⟨-, -, rfl⟩ | ⟨hb, -, rfl⟩
  · exact ⟨rfl, rxByte_congr rfl rfl, fun _ => rfl⟩
  · exact ⟨rfl, rxByte_congr rfl rfl, fun _ => rfl⟩
  · obtain ⟨c, x, v, n, st, hbody, hbusy, -, -, htimeout, hovf⟩ := bodyOf_frame Config.hw i hx s
    rw [hbody]
    refine ⟨?frame, rxByte_congr rfl rfl, fun hinv => (hinv.fsm_of_not_busy hb).symm⟩
    case frame => simp [hb.trans hbusy.symm, ← htimeout, ← hovf]

/-- A command that is not performed writes no results (R110, R111). -/
theorem exec_results (h : exec i s = .next t) : SameResults s t ∨ t = bodyOf Config.hw i s := by
  rcases exec_cases h with ⟨-, rfl⟩ | ⟨-, -, rfl⟩ | ⟨-, -, rfl⟩
  · exact .inl (by constructor <;> rfl)
  · exact .inl (by constructor <;> rfl)
  · exact .inr rfl

/-- Settles O47: of what commands write BUILD keeps VAL, VAL_COUNT, VALID and HDR_MATCH. -/
theorem frameOfBuild : Obligations.FrameOfBuild := by
  intro s t h
  obtain ⟨hframe, hrx, hfsm⟩ := exec_frame (by decide) h
  have hkept : t.val = s.val ∧ t.valCount = s.valCount ∧ t.status.valid = s.status.valid ∧
      t.status.hdrMatch = s.status.hdrMatch := by
    rcases exec_results h with hs | rfl
    · exact ⟨hs.val, hs.valCount, hs.valid, hs.hdrMatch⟩
    · exact ⟨rfl, rfl, rfl, rfl⟩
  obtain ⟨hval, hcount, hvalid, hmatch⟩ := hkept
  rw [hval, hcount, hvalid, hmatch] at hframe
  exact ⟨hframe, hrx, hfsm⟩

/-- R38, R85: DECODE n, whatever becomes of it, keeps the values from VAL[n] on. -/
theorem valAt_of_exec_decode {n : Byte} {j : Nat} (h : exec (.decode n) s = .next t) (hj : n.toNat ≤ j) :
    valAt t j = valAt s j := by
  rcases exec_results h with hs | rfl
  · rw [valAt, hs.val, valAt]
  rcases bodyOf_values Config.hw (.decode n) s with ⟨hval, -⟩ | ⟨_, ⟨⟩, -, -, hval⟩
  · rw [valAt, hval, valAt]
  · rw [valAt_of_val_eq hval, if_neg hj.not_gt]

/-- Settles O48: of what commands write VERIFY keeps TX, VAL, VAL_COUNT and HDR_MATCH; DECODE keeps TX and the values from
the count on. -/
theorem frameOfVerifyAndDecode : Obligations.FrameOfVerifyAndDecode := by
  refine ⟨fun s t h => ?verify, fun n s t h => ?decode⟩
  case verify =>
    obtain ⟨hframe, hrx, hfsm⟩ := exec_frame (by decide) h
    have hkept : t.tx = s.tx ∧ t.val = s.val ∧ t.valCount = s.valCount ∧ t.status.hdrMatch = s.status.hdrMatch := by
      rcases exec_results h with hs | rfl
      · exact ⟨hs.tx, hs.val, hs.valCount, hs.hdrMatch⟩
      · simp [bodyOf, verifyBody_eq, Status.finished]
    obtain ⟨htx, hval, hcount, hmatch⟩ := hkept
    rw [htx, hval, hcount, hmatch] at hframe
    exact ⟨hframe, hrx, hfsm⟩
  case decode =>
    obtain ⟨hframe, hrx, hfsm⟩ := exec_frame (by simp) h
    have htx : t.tx = s.tx := by
      rcases exec_results h with hs | rfl
      · exact hs.tx
      · exact (bodyOf_tx Config.hw _ s).resolve_right (by simp)
    rw [htx] at hframe
    exact ⟨hframe, hrx, fun _ hj => valAt_of_exec_decode h hj, hfsm⟩

end Sys2Proof.Machine
end

section
/-! PROOFS. One step of the sequencer and one tick of its timebase, an equation per outcome (spec/42_transport.md R96 to
R100). -/

namespace Sys2Proof.Machine

variable {s t : State} {p : Params}

theorem step_core (es : List Event) (h : coreStep Config.hw (s.todo es) = t) : step (s.doing .core es) = .next t :=
  congrArg Host.Outcome.next h

/-! ### Send -/

theorem coreStep_tx_more {i : Fin 8} (p : Params) (hf : s.fsm = .tx i) (hi : i.val < 7) :
    coreStep p s = { s with chanOut := s.chanOut ++ [s.tx[i]], fsm := .tx ⟨i.val + 1, by omega⟩ } := by
  rw [coreStep_tx p i hf, sendStep, dif_pos hi]
  rfl

theorem coreStep_tx_last {i : Fin 8} (p : Params) (hf : s.fsm = .tx i) (hi : i.val = 7) :
    coreStep p s = { s with chanOut := s.chanOut ++ [s.tx[i]], fsm := .check } := by
  rw [coreStep_tx p i hf, sendStep, dif_neg (by omega)]
  rfl

/-! ### Check -/

/-- R97: the bound is reached. -/
theorem coreStep_check_bound (p : Params) (hf : s.fsm = .check) (hk : s.k = s.xferChecks) :
    coreStep p s = { s with status := { s.status.finished .timeout with timeout := true }, fsm := .idle } := by
  rw [coreStep_check p hf]
  exact if_pos hk

/-- R97: `ChanAvailable()` is not 0. -/
theorem coreStep_check_available (p : Params) (hf : s.fsm = .check) (hk : s.k ≠ s.xferChecks) (hc : s.chanIn ≠ []) :
    coreStep p s = { s with fsm := .drain } := by
  rw [coreStep_check p hf, checkStep, if_neg hk]
  exact if_pos (List.length_pos_iff.2 hc)

/-- R97: `ChanAvailable()` is 0. -/
theorem coreStep_check_empty (p : Params) (hf : s.fsm = .check) (hk : s.k ≠ s.xferChecks) (hc : s.chanIn = []) :
    coreStep p s = { s with d := s.xferDelay, fsm := .sleep } := by
  rw [coreStep_check p hf, checkStep, if_neg hk]
  exact if_neg (by simp [chanAvailable, hc])

/-- Settles O32: the three outcomes of R97; a core in CHECK has received nothing yet (`Inv.waiting_empty`). -/
theorem checkStepResult : Obligations.CheckStepResult := by
  intro s es hf
  refine ⟨fun hk => step_core es (coreStep_check_bound _ hf hk),
    fun hk hc => step_core es (coreStep_check_available _ hf hk hc),
    fun hk hc => step_core es (coreStep_check_empty _ hf hk hc), fun hinv => ?_⟩
  obtain ⟨hlen, -⟩ := hinv.waiting_empty (by rw [hf]; rfl)
  exact hlen

/-! ### Sleep -/

/-- R98: the sleep is over. -/
theorem coreStep_sleep_over (p : Params) (hf : s.fsm = .sleep) (hd : s.d = 0#16) :
    coreStep p s = { s with k := s.k + 1#8, fsm := .check } := by
  rw [coreStep_sleep p hf]
  exact if_pos hd

/-- R98: before that the core waits for ticks. -/
theorem coreStep_sleep_waiting (p : Params) (hf : s.fsm = .sleep) (hd : s.d ≠ 0#16) : coreStep p s = s := by
  rw [coreStep_sleep p hf]
  exact if_neg hd

theorem tick_sleeping (hf : s.fsm = .sleep) (hd : s.d ≠ 0#16) : tick s = { s with d := s.d - 1#16 } := if_pos ⟨hf, hd⟩

theorem tick_ignored (h : s.fsm ≠ .sleep ∨ s.d = 0#16) : tick s = s := if_neg (by tauto)

theorem toNat_sub_one_add_one {d : Half} (hd : d ≠ 0#16) : (d - 1#16).toNat + 1 = d.toNat := by bv_omega

/-- Settles O33: a tick that a sleep counts, one that has no effect, and the end of the sleep. -/
theorem sleepCountsTicks : Obligations.SleepCountsTicks :=
  ⟨fun s es hf hd => ⟨{ s.todo es with d := s.d - 1#16 }, congrArg Host.Outcome.next (tick_sleeping (s := s.todo es) hf hd),
      toNat_sub_one_add_one hd, rfl⟩,
    fun s es h => congrArg Host.Outcome.next (tick_ignored (s := s.todo es) h),
    fun _ es hf hd => step_core es (coreStep_sleep_over _ hf hd)⟩

/-! ### Drain -/

theorem storeByte_room {b : Byte} (h : s.rxLen.toNat < p.rxCap) :
    storeByte p b s = { writeRx s.rxLen.toNat b s with rxLen := s.rxLen + 1#9 } := if_pos h

theorem storeByte_full {b : Byte} (h : p.rxCap ≤ s.rxLen.toNat) : storeByte p b s = setOvf s := if_neg h.not_gt

/-- R99: what storing a byte leaves unchanged. -/
theorem storeByte_frame (p : Params) (b : Byte) (s : State) :
    ∃ m l v, storeByte p b s = { s with rx := m, rxLen := l, status := { s.status with ovf := v } } := by
  by_cases h : s.rxLen.toNat < p.rxCap
  · exact ⟨_, _, s.status.ovf, storeByte_room h⟩
  · exact ⟨s.rx, s.rxLen, true, storeByte_full (not_lt.1 h)⟩

/-- R99: a waiting byte is taken, and stored or discarded. -/
theorem coreStep_drain_waiting {b : Byte} {rest : List Byte} (p : Params) (hf : s.fsm = .drain)
    (hc : s.chanIn = b :: rest) : coreStep p s = storeByte p b { s with chanIn := rest } := by
  rw [coreStep_drain p hf]
  simp only [drainStep, hc]

/-- R100: the drain ends at the first `ChanAvailable()` that returns 0. -/
theorem coreStep_drain_empty (p : Params) (hf : s.fsm = .drain) (hc : s.chanIn = []) :
    coreStep p s = complete (drainCode s.status) s := by
  rw [coreStep_drain p hf]
  simp only [drainStep, hc]

/-- R35: RX_LEN has room for P_RX_CAP. -/
theorem rxLen_succ_toNat {l : BitVec 9} (h : l.toNat < 256) : (l + 1#9).toNat = l.toNat + 1 := by bv_omega

/-- Settles O34: with a byte waiting, by whether RX has room for it; with none, the completion of R100. -/
theorem drainStoresOrDiscards : Obligations.DrainStoresOrDiscards := by
  intro s es hf
  refine ⟨fun b rest hc hroom => ?store, fun b rest hc hfull => ?discard, fun hc => ?complete⟩
  case store =>
    have hstep := (coreStep_drain_waiting (s := s.todo es) Config.hw hf hc).trans (storeByte_room hroom)
    exact ⟨_, step_core es hstep, rxByte_writeRx_same _ _ _, fun j hj => rxByte_writeRx_other _ _ j b hj,
      rxLen_succ_toNat hroom, rfl⟩
  case discard => exact step_core es (coreStep_drain_full (s := s.todo es) hf hc hfull)
  case complete => exact step_core es (coreStep_drain_empty (s := s.todo es) _ hf hc)

end Sys2Proof.Machine
end

section
/-! PROOFS. What runs of named moves do to an XFER before its drain (spec/42_transport.md R96 to R98). -/

namespace Sys2Proof.Machine

variable {s t u : State} {moves moves' : List Event}

/-! ### Runs of named moves -/

/-- On this hardware these moves, made one after the other from s, lead to t, whatever is scheduled after them. -/
def Runs (s : State) (moves : List Event) (t : State) : Prop :=
  ∀ es, runFor moves.length (s.todo (moves ++ es)) = .next (t.todo es)

theorem runFor_succ {n : Nat} (h : runFor (n + 1) s = .next t) : ∃ u, step s = .next u ∧ runFor n u = .next t := by
  rw [runFor] at h
  split at h
  next u hu => exact ⟨u, hu, h⟩
  all_goals cases h

theorem runFor_add {m : Nat} (n : Nat) (h : runFor m s = .next t) : runFor (m + n) s = runFor n t := by
  induction m generalizing s with
  | zero =>
    cases h
    rw [Nat.zero_add]
  | succ m ih =>
    obtain ⟨u, hu, hrest⟩ := runFor_succ h
    rw [Nat.add_right_comm, runFor_of_step _ hu, ih hrest]

theorem Runs.nil (s : State) : Runs s [] s := fun _ => rfl

theorem Runs.append (h : Runs s moves t) (h' : Runs t moves' u) : Runs s (moves ++ moves') u := fun es => by
  have hfirst := h (moves' ++ es)
  rw [List.append_assoc, List.length_append, runFor_add _ hfirst, h' es]

theorem runs_single {e : Event} (h : ∀ es, perform Config.hw e (s.todo es) = .next (t.todo es)) : Runs s [e] t := by
  intro es
  have hstep : step (s.todo ([e] ++ es)) = .next (t.todo es) := h es
  rw [List.length_singleton, runFor, hstep]
  rfl

theorem Runs.cons {e : Event} (h : Runs s [e] t) (h' : Runs t moves u) : Runs s (e :: moves) u := h.append h'

/-- The sequencer neither reads nor writes the schedule. -/
theorem coreStep_todo (p : Params) (s : State) (es : List Event) : coreStep p (s.todo es) = (coreStep p s).todo es := by
  rcases coreStep_cases p s with ⟨hf | ⟨hf, hd⟩, h⟩ | ⟨i, hf, h⟩ | ⟨hf, hk, h⟩ | ⟨hf, hk, hc, h⟩ | ⟨hf, hk, hc, h⟩ |
    ⟨hf, hd, h⟩ | ⟨hf, b, rest, hc, hroom, h⟩ | ⟨hf, b, rest, hc, hfull, h⟩ | ⟨hf, hc, h⟩ <;> rw [h]
  · exact coreStep_idle (s := s.todo es) p hf
  · exact coreStep_sleep_waiting (s := s.todo es) p hf hd
  · exact coreStep_tx (s := s.todo es) p i hf
  · exact coreStep_check_bound (s := s.todo es) p hf hk
  · exact coreStep_check_available (s := s.todo es) p hf hk hc
  · exact coreStep_check_empty (s := s.todo es) p hf hk hc
  · exact coreStep_sleep_over (s := s.todo es) p hf hd
  · exact (coreStep_drain_waiting (s := s.todo es) p hf hc).trans (storeByte_room hroom)
  · exact coreStep_drain_full (s := s.todo es) hf hc hfull
  · exact coreStep_drain_empty (s := s.todo es) p hf hc

theorem runs_core (h : coreStep Config.hw s = t) : Runs s [.core] t :=
  runs_single fun es => congrArg Host.Outcome.next (h ▸ coreStep_todo Config.hw s es)

theorem runs_arrive (b : Byte) (s : State) : Runs s [.arrive b] (chanArrive b s) := runs_single fun _ => rfl

/-! ### Send -/

theorem tx_drop (v : Vector Byte 8) (i : Fin 8) : v.toList.drop i = v[i] :: v.toList.drop (i + 1) := by
  rw [List.drop_eq_getElem_cons (by simp)]
  rfl

/-- R96: from TX(i) the bytes of TX from i on are handed over. -/
theorem runs_send {n : Nat} {i : Fin 8} (hf : s.fsm = .tx i) (hn : i.val + n = 7) :
    Runs s (List.replicate (n + 1) .core) { s with chanOut := s.chanOut ++ s.tx.toList.drop i, fsm := .check } := by
  induction n generalizing s i with
  | zero =>
    have hdrop : s.tx.toList.drop i = [s.tx[i]] := by
      rw [tx_drop, List.drop_eq_nil_of_le (by simp; omega)]
    rw [hdrop]
    exact runs_core (coreStep_tx_last _ hf hn)
  | succ n ih =>
    have hi : i.val < 7 := by omega
    have hnext : i.val + 1 + n = 7 := by omega
    have hrest := ih (s := { s with chanOut := s.chanOut ++ [s.tx[i]], fsm := .tx ⟨i.val + 1, by omega⟩ }) rfl hnext
    rw [tx_drop, List.append_cons]
    exact .cons (runs_core (coreStep_tx_more _ hf hi)) hrest

/-- The core with its frame handed over, at its first check. -/
abbrev State.sent (s : State) : State := { s with chanOut := s.chanOut ++ s.tx.toList, fsm := .check }

/-- R96: the whole frame. -/
theorem runs_send_frame (hf : s.fsm = .tx 0) : Runs s (List.replicate 8 .core) s.sent := runs_send (n := 7) hf rfl

/-- Settles O31: the step by whether TX(i) is the last, the frame by `runs_send_frame`. -/
theorem sendStepsHandOverTheFrame : Obligations.SendStepsHandOverTheFrame := by
  refine ⟨fun s i es hf => ?step, fun s es hf => runs_send_frame hf es⟩
  case step =>
    by_cases hi : i.val < 7
    · exact ⟨_, step_core es (coreStep_tx_more (s := s.todo es) _ hf hi), fun _ => rfl, fun h => by omega, rfl⟩
    · exact ⟨_, step_core es (coreStep_tx_last (s := s.todo es) _ hf (by omega)), fun h => absurd h hi, fun _ => rfl, rfl⟩

/-! ### The wait loop -/

/-- R98: the ticks of a sleep. -/
theorem runs_ticks {n : Nat} (hf : s.fsm = .sleep) (hn : s.d.toNat = n) :
    Runs s (List.replicate n .tick) { s with d := 0#16 } := by
  induction n generalizing s with
  | zero =>
    have hd : s.d = 0#16 := BitVec.eq_of_toNat_eq hn
    rw [← hd]
    exact .nil s
  | succ n ih =>
    have hd : s.d ≠ 0#16 := by rintro h; simp [h] at hn
    have hrest := ih (s := { s with d := s.d - 1#16 }) hf (Nat.succ.inj ((toNat_sub_one_add_one hd).trans hn))
    exact .cons (runs_single fun es => congrArg Host.Outcome.next (tick_sleeping (s := s.todo es) hf hd)) hrest

/-- R97, R98: one round of the wait loop, a check that finds no byte and the sleep after it. -/
theorem runs_round (hf : s.fsm = .check) (hk : s.k ≠ s.xferChecks) (hc : s.chanIn = []) :
    Runs s (.core :: (List.replicate s.xferDelay.toNat .tick ++ [.core])) { s with k := s.k + 1#8, d := 0#16 } := by
  have hcheck : Runs s [.core] { s with d := s.xferDelay, fsm := .sleep } :=
    runs_core (coreStep_check_empty _ hf hk hc)
  have hsleep : Runs { s with d := s.xferDelay, fsm := .sleep } (List.replicate s.xferDelay.toNat .tick)
      { s with d := 0#16, fsm := .sleep } := runs_ticks rfl rfl
  have hover : Runs { s with d := 0#16, fsm := .sleep } [.core] { s with k := s.k + 1#8, d := 0#16, fsm := .check } :=
    runs_core (coreStep_sleep_over _ rfl rfl)
  rw [← hf] at hover
  exact hcheck.cons (hsleep.append hover)

/-- R97: rounds until the bound is reached. -/
theorem runs_rounds {n : Nat} (hf : s.fsm = .check) (hc : s.chanIn = []) (hd : s.d = 0#16)
    (hn : s.k.toNat + n = s.xferChecks.toNat) :
    Runs s (List.replicate n (.core :: (List.replicate s.xferDelay.toNat .tick ++ [.core]))).flatten
      { s with k := s.xferChecks } := by
  induction n generalizing s with
  | zero =>
    have hk : s.xferChecks = s.k := BitVec.eq_of_toNat_eq hn.symm
    have hsame : { s with k := s.xferChecks } = s := congrArg (fun k => { s with k := k }) hk
    rw [hsame]
    exact .nil s
  | succ n ih =>
    have hlt := s.xferChecks.isLt
    have hk : s.k ≠ s.xferChecks := by rintro h; simp [h] at hn
    have hnext : (s.k + 1#8).toNat + n = s.xferChecks.toNat := by bv_omega
    have hround := runs_round hf hk hc
    have hrest := ih (s := { s with k := s.k + 1#8, d := 0#16 }) hf hc rfl hnext
    rw [← hd] at hround hrest
    rw [List.replicate_succ, List.flatten_cons]
    exact hround.append hrest

/-- Settles O36: the frame, XFER_CHECKS rounds, and the check that finds the bound reached. -/
theorem quietXferTimesOut : Obligations.QuietXferTimesOut := by
  intro s es hinv hf hc
  obtain ⟨hk, hd⟩ := hinv.sending_counts 0 hf
  obtain ⟨hlen, -⟩ := hinv.waiting_empty (by rw [hf]; rfl)
  have hsend := runs_send_frame hf
  have hwait : Runs s.sent _ { s.sent with k := s.xferChecks } :=
    runs_rounds (n := s.xferChecks.toNat) rfl hc hd (by simp [hk])
  have hlast : Runs { s.sent with k := s.xferChecks } [.core] _ := runs_core (coreStep_check_bound _ rfl rfl)
  exact ⟨((hsend.append hwait).append hlast) es, hlen⟩

end Sys2Proof.Machine
end

section
/-! PROOFS. What runs of named moves do to a drain (spec/42_transport.md R99, R100, R106). -/

namespace Sys2Proof.Machine

variable {s t : State}

/-! ### A drain that ends -/

/-- The state t of a drain that started from s and has taken these bytes, all that had arrived (R99): RX and RX_LEN hold
those there was room for, after the ones that were there; OVF is set if there were more. -/
structure Drained (s : State) (bs : List Byte) (t : State) : Prop where
  rxLen : t.rxLen.toNat = min (s.rxLen.toNat + bs.length) 256
  stored : ∀ i b, s.rxLen.toNat + i < 256 → bs[i]? = some b → rxByte t (s.rxLen.toNat + i) = b
  kept : ∀ j, j < s.rxLen.toNat ∨ s.rxLen.toNat + bs.length ≤ j → rxByte t j = rxByte s j
  status : t.status = { s.status with ovf := s.status.ovf || decide (256 < s.rxLen.toNat + bs.length) }
  frame : t = { s with chanIn := [], rx := t.rx, rxLen := t.rxLen, status := t.status }

theorem Drained.nil (hc : s.chanIn = []) (hlen : s.rxLen.toNat ≤ 256) : Drained s [] s where
  rxLen := by simp [hlen]
  stored := by simp
  kept := fun _ _ => rfl
  status := by simp [hlen.not_gt]
  frame := by rw [← hc]

/-- The byte that is stored first stays where it is: later ones go behind it. -/
theorem Drained.cons_room {b : Byte} {rest : List Byte} (hroom : s.rxLen.toNat < 256)
    (h : Drained { writeRx s.rxLen.toNat b s with rxLen := s.rxLen + 1#9, chanIn := rest } rest t) :
    Drained s (b :: rest) t := by
  obtain ⟨hlen, hstored, hkept, hstatus, hframe⟩ := h
  simp only [rxLen_succ_toNat hroom] at hlen hstored hkept hstatus
  have hsum : s.rxLen.toNat + (b :: rest).length = s.rxLen.toNat + 1 + rest.length := by rw [List.length_cons]; omega
  refine ⟨hsum ▸ hlen, fun i c hi hget => ?stored, fun j hj => ?kept, hsum ▸ hstatus, hframe⟩
  case stored =>
    cases i with
    | zero =>
      obtain rfl : b = c := by simpa using hget
      exact (hkept _ (.inl (Nat.lt_succ_self _))).trans (rxByte_writeRx_same s _ b)
    | succ i =>
      rw [← hstored i c (by omega) (by simpa using hget)]
      congr 1
      omega
  case kept =>
    rw [hsum] at hj
    exact (hkept j (by omega)).trans (rxByte_writeRx_other s _ j b (by omega))

/-- A byte that finds RX full is discarded. -/
theorem Drained.cons_full {b : Byte} {rest : List Byte} (hfull : s.rxLen.toNat = 256)
    (h : Drained { setOvf s with chanIn := rest } rest t) : Drained s (b :: rest) t := by
  obtain ⟨hlen, hstored, hkept, hstatus, hframe⟩ := h
  simp only [setOvf_rxLen, setOvf_status, hfull] at hlen hstored hkept hstatus
  refine ⟨?rxLen, fun i c hi => ?stored, fun j hj => hkept j ?kept, ?status, hframe⟩
  case rxLen =>
    simp only [hfull, List.length_cons]
    omega
  case stored => omega
  case kept =>
    simp only [hfull, List.length_cons] at hj
    omega
  case status => simp [hstatus, hfull]

/-- R99: one core step takes each waiting byte. -/
theorem runs_drain {bs : List Byte} (hf : s.fsm = .drain) (hc : s.chanIn = bs) (hlen : s.rxLen.toNat ≤ 256) :
    ∃ t, Runs s (List.replicate bs.length .core) t ∧ Drained s bs t := by
  induction bs generalizing s with
  | nil => exact ⟨s, .nil s, .nil hc hlen⟩
  | cons b rest ih =>
    have hfirst := coreStep_drain_waiting Config.hw hf hc
    by_cases hroom : s.rxLen.toNat < 256
    · obtain ⟨t, hruns, hdrained⟩ :=
        ih (s := { writeRx s.rxLen.toNat b s with rxLen := s.rxLen + 1#9, chanIn := rest }) hf rfl
          ((rxLen_succ_toNat hroom).trans_le hroom)
      exact ⟨t, .cons (runs_core (hfirst.trans (storeByte_room hroom))) hruns, hdrained.cons_room hroom⟩
    · have hfull : s.rxLen.toNat = 256 := le_antisymm hlen (not_lt.1 hroom)
      obtain ⟨t, hruns, hdrained⟩ := ih (s := { setOvf s with chanIn := rest }) hf rfl hlen
      exact ⟨t, .cons (runs_core (hfirst.trans (storeByte_full hfull.ge))) hruns, hdrained.cons_full hfull⟩

/-- Settles O35: the bytes by `runs_drain`, then the completion of R100. -/
theorem drainCollectsTheArrivedBytes : Obligations.DrainCollectsTheArrivedBytes := by
  intro s es hf hlen hovf
  have hzero : s.rxLen.toNat = 0 := by rw [hlen]; rfl
  obtain ⟨t, hruns, hrxLen, hstored, hkept, hstatus, hframe⟩ := runs_drain hf rfl (by omega)
  have hend : Runs t [.core] _ := runs_core (coreStep_drain_empty _ (by rw [hframe]; exact hf) (by rw [hframe]))
  have hrun := (hruns.append hend) es
  rw [← List.replicate_succ', List.length_replicate] at hrun
  simp only [hzero, Nat.zero_add, hovf, Bool.false_or] at hrxLen hstored hkept hstatus
  refine ⟨_, hrun, hrxLen, hstored, fun i hi => hkept i (.inr hi), ?status, ?frame⟩
  case status => simp [hstatus, drainCode, Status.finished]
  case frame => rw [hframe]; rfl

/-! ### A drain that does not end -/

/-- A busy core in DRAIN, with a byte waiting. -/
abbrev Draining (s : State) : Prop := s.status.busy = true ∧ s.fsm = .drain ∧ s.chanIn ≠ []

/-- R99: of the two bytes or more that wait after an arrival the core step takes one. -/
theorem runs_arrive_drain (b : Byte) (h : Draining s) : ∃ t, Runs s [.arrive b, .core] t ∧ Draining t := by
  obtain ⟨hb, hf, hc⟩ := h
  obtain ⟨c, rest, hc⟩ := List.exists_cons_of_ne_nil hc
  have hwait : (chanArrive b s).chanIn = c :: (rest ++ [b]) := by rw [chanArrive_chanIn, hc, List.cons_append]
  have hstep := coreStep_drain_waiting Config.hw (s := chanArrive b s) hf hwait
  obtain ⟨m, l, v, hstore⟩ := storeByte_frame Config.hw c { chanArrive b s with chanIn := rest ++ [b] }
  exact ⟨_, (runs_arrive b s).cons (runs_core (hstep.trans hstore)), hb, hf, by simp⟩

theorem runs_arrivals (n : Nat) (b : Byte) (h : Draining s) :
    ∃ t, Runs s (List.replicate n [.arrive b, .core]).flatten t ∧ Draining t := by
  induction n generalizing s with
  | zero => exact ⟨s, .nil s, h⟩
  | succ n ih =>
    obtain ⟨u, hfirst, hu⟩ := runs_arrive_drain b h
    obtain ⟨t, hrest, ht⟩ := ih hu
    exact ⟨t, hfirst.append hrest, ht⟩

/-- Settles O38, by `runs_arrivals`. -/
theorem drainMayNotEnd : Obligations.DrainMayNotEnd := by
  intro n s b es hf hb hc
  obtain ⟨t, hruns, ht⟩ := runs_arrivals n b ⟨hb, hf, hc⟩
  have hlength : (List.replicate n [Event.arrive b, .core]).flatten.length = 2 * n := by simp [mul_comm]
  exact ⟨t.todo es, hlength ▸ hruns es, ht⟩

end Sys2Proof.Machine
end

section
/-! PROOFS. The moves that write and read the channel (spec/42_transport.md R90, R96, R102, R103). -/

namespace Sys2Proof.Machine

variable {s t : State} {p : Params}

/-- R90: no command and no host access touches the channel. -/
theorem bodyOf_channel (p : Params) (i : Instr) (s : State) :
    (bodyOf p i s).chanIn = s.chanIn ∧ (bodyOf p i s).chanOut = s.chanOut := by
  by_cases hx : i = .xfer
  · rw [hx]
    exact ⟨rfl, rfl⟩
  · obtain ⟨_, _, _, _, _, hbody, -⟩ := bodyOf_frame p i hx s
    rw [hbody]
    exact ⟨rfl, rfl⟩

theorem hostAccess_channel {a : Access} (h : hostAccess p a s = .next t) : t.chanIn = s.chanIn ∧ t.chanOut = s.chanOut := by
  obtain ⟨-, -, hcase⟩ := access_cases h
  rcases hcase with ⟨l, rfl⟩ | rfl | ⟨v, -, rfl⟩ | ⟨-, v, hst⟩ | ⟨-, rfl⟩ | ⟨-, i, -, -, rfl⟩
  · exact ⟨rfl, rfl⟩
  · exact ⟨rfl, rfl⟩
  · rw [writeStatus_eq]
    exact ⟨rfl, rfl⟩
  · rw [hst.frame]
    exact ⟨rfl, rfl⟩
  · exact ⟨rfl, rfl⟩
  · exact bodyOf_channel p i (accept s)

/-- R96: the sequencer hands over a byte in TX(i) alone. -/
theorem coreStep_chanOut (p : Params) (s : State) :
    (coreStep p s).chanOut = s.chanOut ∨ ∃ i, s.fsm = .tx i ∧ (coreStep p s).chanOut = s.chanOut ++ [s.tx[i]] := by
  rcases coreStep_cases p s with ⟨-, h⟩ | ⟨i, hf, h⟩ | ⟨-, -, h⟩ | ⟨-, -, -, h⟩ | ⟨-, -, -, h⟩ | ⟨-, -, h⟩ |
    ⟨-, b, rest, -, -, h⟩ | ⟨-, b, rest, -, -, h⟩ | ⟨-, -, h⟩
  on_goal 2 => exact .inr ⟨i, hf, by rw [h]⟩
  all_goals exact .inl (by simp [h])

/-- R99: the sequencer takes a byte in DRAIN alone, the oldest. -/
theorem coreStep_chanIn (p : Params) (s : State) :
    (coreStep p s).chanIn = s.chanIn ∨ (s.fsm = .drain ∧ ∃ b, s.chanIn = b :: (coreStep p s).chanIn) := by
  rcases coreStep_cases p s with ⟨-, h⟩ | ⟨i, -, h⟩ | ⟨-, -, h⟩ | ⟨-, -, -, h⟩ | ⟨-, -, -, h⟩ | ⟨-, -, h⟩ |
    ⟨hf, b, rest, hc, -, h⟩ | ⟨hf, b, rest, hc, -, h⟩ | ⟨-, -, h⟩
  on_goal 7 => exact .inr ⟨hf, b, by rw [h, hc]⟩
  on_goal 7 => exact .inr ⟨hf, b, by rw [h, hc, setOvf_chanIn]⟩
  all_goals exact .inl (by simp [h])

/-- Only an arrival, a step of the sequencer and the assertion of reset can change the channel (R90, R124). -/
theorem step_channel (h : step s = .next t) :
    (t.chanIn = s.chanIn ∧ t.chanOut = s.chanOut) ∨
    (∃ b, nextEvent s = .arrive b ∧ t.chanIn = s.chanIn ++ [b] ∧ t.chanOut = s.chanOut) ∨
    (nextEvent s = .core ∧ t = coreStep Config.hw (popEvent s)) ∨ (resets s ∧ t.chanOut = s.chanOut) := by
  rcases step_cases h with ⟨a, u, h', -, hu, rfl⟩ | ⟨-, h', rfl⟩ | hcore | ⟨b, hb, rfl⟩ | ⟨-, rfl⟩ | ⟨-, rfl⟩ |
    ⟨l, hl, rfl⟩ | ⟨-, rfl⟩
  · exact .inl (by simpa using hostAccess_channel hu)
  · exact .inl (by simp)
  · exact .inr (.inr (.inl hcore))
  · exact .inr (.inl ⟨b, hb, by simp, by simp⟩)
  · obtain ⟨n, hn⟩ := chanConsume_eq (popEvent s)
    exact .inl (by simp [hn])
  · obtain ⟨d, hd⟩ := tick_eq (popEvent s)
    exact .inl (by simp [hd])
  · exact .inr (.inr (.inr ⟨⟨l, hl⟩, popEvent_chanOut s⟩))
  · exact .inl (by simp)

/-- Settles O39: of the moves that touch the channel only a step of the sequencer writes `chan_out`. -/
theorem onlySendStepsWriteTheChannel : Obligations.OnlySendStepsWriteTheChannel := by
  intro s t h
  rcases step_channel h with ⟨-, hout⟩ | ⟨b, -, -, hout⟩ | ⟨hcore, rfl⟩ | ⟨-, hout⟩
  · exact .inl hout
  · exact .inl hout
  · rcases coreStep_chanOut Config.hw (popEvent s) with hout | ⟨i, hf, hout⟩
    · exact .inl (by simpa using hout)
    · exact .inr ⟨hcore, i, by simpa using hf, by simpa using hout⟩
  · exact .inl hout

/-- Settles O40: an arrival, a step of the sequencer in DRAIN, or reset. -/
theorem onlyDrainStepsReadTheChannel : Obligations.OnlyDrainStepsReadTheChannel := by
  intro s t h
  rcases step_channel h with ⟨hin, -⟩ | ⟨b, hb, hin, -⟩ | ⟨hcore, rfl⟩ | ⟨hreset, -⟩
  · exact .inl hin
  · exact .inr (.inl ⟨b, hb, hin⟩)
  · rcases coreStep_chanIn Config.hw (popEvent s) with hin | ⟨hf, hin⟩
    · exact .inl (by simpa using hin)
    · exact .inr (.inr (.inl ⟨hcore, by simpa using hf, by simpa using hin⟩))
  · exact .inr (.inr (.inr hreset))

end Sys2Proof.Machine
end

section
/-! PROOFS. The acceptance of an XFER, and the moves that leave it alone (spec/42_transport.md R95). -/

namespace Sys2Proof.Machine

variable {s t : State} {p : Params}

/-! ### A busy core -/

/-- Two states with the same XFER: its operands, the sequencer and its counts, and TIMEOUT. -/
structure SameXfer (s t : State) : Prop where
  xferChecks : t.xferChecks = s.xferChecks
  xferDelay : t.xferDelay = s.xferDelay
  fsm : t.fsm = s.fsm
  k : t.k = s.k
  d : t.d = s.d
  timeout : t.status.timeout = s.status.timeout

theorem sameXfer_popEvent (s : State) : SameXfer s (popEvent s) := by constructor <;> simp

/-- R48: of a busy core a host access writes REJECTED at most. -/
theorem hostAccess_busy {a : Access} (hb : s.status.busy = true) (h : hostAccess p a s = .next t) :
    ∃ l r, t = { s with readLog := l, status := { s.status with rejected := r } } := by
  obtain ⟨-, -, hcase⟩ := access_cases h
  simp only [hb, Bool.true_eq_false, false_and, or_false] at hcase
  rcases hcase with ⟨l, rfl⟩ | rfl | ⟨v, -, rfl⟩
  · exact ⟨l, s.status.rejected, rfl⟩
  · exact ⟨s.readLog, true, rfl⟩
  · exact ⟨s.readLog, _, writeStatus_eq v s⟩

/-- A busy core's XFER is moved on by the sequencer and the timebase, ended by reset, and left alone by every other move. -/
theorem step_busy_cases (hb : s.status.busy = true) (h : step s = .next t) :
    (nextEvent s ≠ .core ∧ nextEvent s ≠ .tick ∧ SameXfer s t) ∨
    (nextEvent s = .core ∧ t = coreStep Config.hw (popEvent s)) ∨ (nextEvent s = .tick ∧ t = tick (popEvent s)) ∨
    (∃ l, nextEvent s = .assertReset l ∧ t = assertReset Config.hw l (popEvent s)) := by
  have hpop := sameXfer_popEvent s
  rcases step_cases h with ⟨a, u, h', ha, hu, rfl⟩ | ⟨he, h', rfl⟩ | hcore | ⟨b, he, rfl⟩ | ⟨he, rfl⟩ | htick | hreset |
    ⟨he, rfl⟩
  · obtain ⟨l, r, rfl⟩ := hostAccess_busy (by simpa using hb) hu
    exact .inl ⟨fun he => by simp [he, accessAt] at ha, fun he => by simp [he, accessAt] at ha, { hpop with }⟩
  · exact .inl ⟨by simp [he], by simp [he], { hpop with }⟩
  · exact .inr (.inl hcore)
  · exact .inl ⟨by simp [he], by simp [he], { hpop with }⟩
  · obtain ⟨n, hn⟩ := chanConsume_eq (popEvent s)
    rw [hn]
    exact .inl ⟨by simp [he], by simp [he], { hpop with }⟩
  · exact .inr (.inr (.inl htick))
  · exact .inr (.inr (.inr hreset))
  · exact .inl ⟨by simp [he], by simp [he], { hpop with }⟩

/-! ### Acceptance -/

/-- R95: the sequencer does not write the operands. -/
theorem coreStep_operands (p : Params) (s : State) :
    (coreStep p s).xferChecks = s.xferChecks ∧ (coreStep p s).xferDelay = s.xferDelay := by
  rcases coreStep_cases p s with ⟨-, h⟩ | ⟨i, -, h⟩ | ⟨-, -, h⟩ | ⟨-, -, -, h⟩ | ⟨-, -, -, h⟩ | ⟨-, -, h⟩ |
    ⟨-, b, rest, -, -, h⟩ | ⟨-, b, rest, -, -, h⟩ | ⟨-, -, h⟩ <;> simp [h]

/-- R48, R95: the operands of an XFER stay until it has completed. -/
theorem step_busy_operands (hb : s.status.busy = true) (h : step s = .next t) (hr : ¬resets s) :
    t.xferChecks = s.xferChecks ∧ t.xferDelay = s.xferDelay := by
  rcases step_busy_cases hb h with ⟨-, -, hsame⟩ | ⟨-, rfl⟩ | ⟨-, rfl⟩ | ⟨l, hl, -⟩
  · exact ⟨hsame.xferChecks, hsame.xferDelay⟩
  · simpa using coreStep_operands Config.hw (popEvent s)
  · obtain ⟨d, hd⟩ := tick_eq (popEvent s)
    simp [hd]
  · exact absurd ⟨l, hl⟩ hr

/-- Settles O30: the acceptance is XFER's body, the operands stay by `step_busy_operands`. -/
theorem xferIsAccepted : Obligations.XferIsAccepted :=
  ⟨fun _ hb => exec_idle_body rfl hb, fun _ _ => step_busy_operands⟩

/-- Settles O49: a busy core refuses it, an idle one runs `xferBody`. -/
theorem frameOfXfer : Obligations.FrameOfXfer := by
  intro s t h
  rcases exec_cases h with ⟨hb, rfl⟩ | ⟨-, hw, -⟩ | ⟨hb, -, rfl⟩
  · exact ⟨rfl, rxByte_congr rfl rfl, fun _ => rfl, fun hidle => by simp [hb] at hidle⟩
  · cases hw
  · exact ⟨rfl, rxByte_congr rfl rfl, fun hbusy => by simp [hb] at hbusy, fun _ => rfl⟩

end Sys2Proof.Machine
end

section
/-! PROOFS. The bound of the wait loop on every schedule (spec/42_transport.md R97, R98, R101): an account of the checks and
ticks spent, which holds at TX(0) and which every step of a busy core keeps. -/

namespace Sys2Proof.Machine

variable {s t : State}

/-- What an XFER of C checks and sleeps of D ticks (R101) has spent by the time it stands at s: c checks, w ticks.
In the drain, and after a reset, it is only known not to have made too many checks. -/
structure Spent (C : Byte) (D : Half) (c w : Nat) (s : State) : Prop where
  operands : s.status.busy = true → s.xferChecks = C ∧ s.xferDelay = D
  le : c ≤ C.toNat
  sending : ∀ i, s.fsm = .tx i → c = 0 ∧ w = 0
  checking : s.fsm = .check → c = s.k.toNat ∧ w = s.k.toNat * D.toNat
  sleeping : s.fsm = .sleep → c = s.k.toNat + 1 ∧ w + s.d.toNat = (s.k.toNat + 1) * D.toNat
  timeout : s.status.timeout = true → c = C.toNat ∧ w = C.toNat * D.toNat

section
variable {C : Byte} {D : Half} {c w : Nat}

theorem Spent.congr (h : Spent C D c w s) (hst : SameXfer s t) (hb : s.status.busy = true) : Spent C D c w t where
  operands := fun _ => by rw [hst.xferChecks, hst.xferDelay]; exact h.operands hb
  le := h.le
  sending := by rw [hst.fsm]; exact h.sending
  checking := by rw [hst.fsm, hst.k]; exact h.checking
  sleeping := by rw [hst.fsm, hst.k, hst.d]; exact h.sleeping
  timeout := by rw [hst.timeout]; exact h.timeout

/-- Past the wait loop no more is spent. -/
theorem spent_of_ended (hf : t.fsm = .drain ∨ t.fsm = .idle)
    (hop : t.status.busy = true → t.xferChecks = C ∧ t.xferDelay = D) (hle : c ≤ C.toNat)
    (htimeout : t.status.timeout = true → c = C.toNat ∧ w = C.toNat * D.toNat) : Spent C D c w t where
  operands := hop
  le := hle
  sending := by rcases hf with hf | hf <;> simp [hf]
  checking := by rcases hf with hf | hf <;> simp [hf]
  sleeping := by rcases hf with hf | hf <;> simp [hf]
  timeout := htimeout

/-- R96: nothing is spent while the frame is sent. -/
theorem spent_send {i : Fin 8} (hinv : Inv s) (hf : s.fsm = .tx i) (h : Spent C D c w s) :
    Spent C D c w (sendStep i s) := by
  obtain ⟨hk, -⟩ := hinv.sending_counts i hf
  obtain ⟨hc, hw⟩ := h.sending i hf
  unfold sendStep
  split
  · exact { h with sending := fun _ _ => ⟨hc, hw⟩, checking := nofun, sleeping := nofun }
  · exact { h with sending := nofun, checking := fun _ => by simp [hk, hc, hw], sleeping := nofun }

/-- R97: a check of the wait loop is one more check. -/
theorem spent_check (hinv : Inv s) (hf : s.fsm = .check) (hk : s.k ≠ s.xferChecks) (h : Spent C D c w s) :
    Spent C D (c + 1) w (coreStep Config.hw s) := by
  obtain ⟨hb, -⟩ := hinv.busy_of_running (by simp [hf])
  obtain ⟨-, -, -, ht⟩ := hinv.busy_flags hb
  obtain ⟨hC, hD⟩ := h.operands hb
  obtain ⟨hc, hw⟩ := h.checking hf
  have hlt : s.k.toNat < C.toNat := hC ▸ lt_of_le_of_ne (hinv.check_counts hf) (BitVec.toNat_ne.1 hk)
  by_cases hin : s.chanIn = []
  · rw [coreStep_check_empty _ hf hk hin]
    exact {
      operands := fun _ => ⟨hC, hD⟩
      le := hc ▸ hlt
      sending := nofun
      checking := nofun
      sleeping := fun _ => ⟨by rw [hc], by rw [hw, hD, Nat.succ_mul]⟩
      timeout := by simp [ht] }
  · rw [coreStep_check_available _ hf hk hin]
    exact spent_of_ended (.inl rfl) (fun _ => ⟨hC, hD⟩) (hc ▸ hlt) (by simp [ht])

/-- R96 to R100: the other steps of the sequencer are no check. -/
theorem spent_coreStep (hinv : Inv s) (hcheck : ¬(s.fsm = .check ∧ s.k ≠ s.xferChecks)) (hb : s.status.busy = true)
    (h : Spent C D c w s) : Spent C D c w (coreStep Config.hw s) := by
  have hop := h.operands hb
  rcases coreStep_cases Config.hw s with ⟨-, hs⟩ | ⟨i, hf, hs⟩ | ⟨hf, hk, hs⟩ | ⟨hf, hk, -⟩ | ⟨hf, hk, -⟩ | ⟨hf, hd, hs⟩ |
    ⟨hf, b, rest, -, -, hs⟩ | ⟨hf, b, rest, -, -, hs⟩ | ⟨hf, -, hs⟩
  · rwa [hs]
  · rw [coreStep_tx _ i hf]
    exact spent_send hinv hf h
  · obtain ⟨hc, hw⟩ := h.checking hf
    rw [hk, hop.1] at hc hw
    rw [hs]
    exact spent_of_ended (.inr rfl) nofun h.le fun _ => ⟨hc, hw⟩
  · exact absurd ⟨hf, hk⟩ hcheck
  · exact absurd ⟨hf, hk⟩ hcheck
  · obtain ⟨hc, hw⟩ := h.sleeping hf
    have hlt := (hinv.sleep_counts hf).1
    have hk : (s.k + 1#8).toNat = s.k.toNat + 1 := by bv_omega
    rw [hs]
    exact {
      operands := fun _ => hop
      le := h.le
      sending := nofun
      checking := fun _ => by simpa [hk, hd] using And.intro hc hw
      sleeping := nofun
      timeout := h.timeout }
  · rw [hs]
    exact spent_of_ended (.inl hf) (fun _ => hop) h.le h.timeout
  · rw [hs]
    exact spent_of_ended (.inl hf) (fun _ => hop) h.le h.timeout
  · rw [hs]
    exact spent_of_ended (.inr rfl) nofun h.le h.timeout

/-- R98: a tick that a sleep counts is one more tick waited. -/
theorem spent_tick (hf : s.fsm = .sleep) (hd : s.d ≠ 0#16) (ht : s.status.timeout = false) (h : Spent C D c w s) :
    Spent C D c (w + 1) (tick s) := by
  obtain ⟨hc, hw⟩ := h.sleeping hf
  have hdec := toNat_sub_one_add_one hd
  rw [tick_sleeping hf hd]
  exact {
    operands := h.operands
    le := h.le
    sending := by simp [hf]
    checking := by simp [hf]
    sleeping := fun _ => ⟨hc, show w + 1 + (s.d - 1#16).toNat = (s.k.toNat + 1) * D.toNat by omega⟩
    timeout := by simp [ht] }

/-- R97, R98: what a step of a busy core spends is what `checkMade` and `tickWaited` count. -/
theorem spent_step (hinv : Inv s) (hb : s.status.busy = true) (h : Spent C D c w s) (hstep : step s = .next t) :
    Spent C D (c + checkMade s) (w + tickWaited s) t := by
  have hpop : Spent C D c w (popEvent s) := h.congr (sameXfer_popEvent s) hb
  have hbpop : (popEvent s).status.busy = true := by simpa using hb
  have hinvpop := inv_popEvent hinv
  obtain ⟨-, -, -, ht⟩ := hinvpop.busy_flags hbpop
  rcases step_busy_cases hb hstep with ⟨hcore, htick, hsame⟩ | ⟨he, rfl⟩ | ⟨he, rfl⟩ | ⟨l, he, rfl⟩
  · simpa [checkMade, tickWaited, hcore, htick] using h.congr hsame hb
  · have hnotick : tickWaited s = 0 := by simp [tickWaited, he]
    rw [hnotick]
    by_cases hcheck : s.fsm = .check ∧ s.k ≠ s.xferChecks
    · have hone : checkMade s = 1 := if_pos ⟨he, hcheck⟩
      rw [hone]
      exact spent_check hinvpop (by simpa using hcheck.1) (by simpa using hcheck.2) hpop
    · have hnone : checkMade s = 0 := by simp [checkMade, hcheck]
      rw [hnone]
      exact spent_coreStep hinvpop (by simpa using hcheck) hbpop hpop
  · have hnocheck : checkMade s = 0 := by simp [checkMade, he]
    rw [hnocheck]
    by_cases hsleep : s.fsm = .sleep ∧ s.d ≠ 0#16
    · have hone : tickWaited s = 1 := if_pos ⟨he, hsleep⟩
      rw [hone]
      exact spent_tick (by simpa using hsleep.1) (by simpa using hsleep.2) ht hpop
    · have hnone : tickWaited s = 0 := by simp [tickWaited, hsleep]
      rw [hnone, tick_ignored (by rw [popEvent_fsm, popEvent_d]; tauto)]
      exact hpop
  · have hended : Spent C D c w (assertReset Config.hw l (popEvent s)) := spent_of_ended (.inr rfl) nofun h.le nofun
    simpa [checkMade, tickWaited, he] using hended

theorem totalOver_of_step {count : State → Nat} (n : Nat) (h : step s = .next t) :
    totalOver count (n + 1) s = count s + totalOver count n t := by
  rw [totalOver, h]

theorem spent_runFor {n : Nat} (hinv : Inv s) (h : Spent C D c w s) (hrun : runFor n s = .next t)
    (hbusy : ∀ m u, m < n → runFor m s = .next u → u.status.busy = true) :
    Spent C D (c + totalOver checkMade n s) (w + totalOver tickWaited n s) t := by
  induction n generalizing s c w with
  | zero =>
    cases hrun
    exact h
  | succ n ih =>
    obtain ⟨u, hu, hrest⟩ := runFor_succ hrun
    have hb := hbusy 0 s n.succ_pos rfl
    have hlater := ih (stepKeepsTheInvariant s u hinv hu) (spent_step hinv hb h hu) hrest
      fun m v hm hv => hbusy (m + 1) v (Nat.succ_lt_succ hm) ((runFor_of_step m hu).trans hv)
    rwa [totalOver_of_step n hu, totalOver_of_step n hu, ← Nat.add_assoc, ← Nat.add_assoc]

end

/-- Settles O37: at TX(0) nothing is spent (R95), and no step breaks the account (`spent_runFor`). -/
theorem timeoutComesAfterExactlyTheBound : Obligations.TimeoutComesAfterExactlyTheBound := by
  intro n s t hinv hf hrun hbusy
  obtain ⟨hb, -⟩ := hinv.busy_of_running (by simp [hf])
  obtain ⟨-, -, -, ht⟩ := hinv.busy_flags hb
  have hstart : Spent s.xferChecks s.xferDelay 0 0 s :=
    { operands := fun _ => ⟨rfl, rfl⟩
      le := Nat.zero_le _
      sending := fun _ _ => ⟨rfl, rfl⟩
      checking := by simp [hf]
      sleeping := by simp [hf]
      timeout := by simp [ht] }
  have hspent := spent_runFor hinv hstart hrun hbusy
  rw [Nat.zero_add, Nat.zero_add] at hspent
  exact ⟨hspent.timeout, hspent.le⟩

end Sys2Proof.Machine
end

section
/-! PROOFS. What takes the place of exceptions (spec/60_exceptions.md): the refusals of a busy core, the accesses without a
meaning, and that neither a command nor a move of the core or its environment stops the machine. -/

namespace Sys2Proof.Machine

variable {s : State} {p : Params}

/-! ### Writes to a busy core -/

theorem writeRw_busy (store : State → State) (hb : s.status.busy = true) : writeRw store s = reject s := if_pos hb

theorem submit_busy (p : Params) (w : Word) (hb : s.status.busy = true) : submit p w s = .next (reject s) := if_pos hb

/-- R112: CMD and the RW registers of R43, whose writes a busy core refuses (`writeReg_busy`). -/
def Reg.guarded : Reg → Bool
  | .cmd | .crc | .reqAddr | .reqFunc | .reqReg | .reqVal | .xferChecks | .xferDelay | .rxLen | .rx _ => true
  | .status | .valCount | .tx _ | .val _ | .reserved => false

/-- R111, R112: the two ways a write is guarded are the BUSY tests of `submit` and of `writeRw`. -/
theorem writeReg_busy {r : Reg} (p : Params) (v : Word) (hg : r.guarded = true) (hb : s.status.busy = true) :
    writeReg p r v s = .next (reject s) := by
  cases r with
  | cmd => exact submit_busy p v hb
  | status | valCount | tx i | val j | reserved => cases hg
  | _ => exact congrArg Host.Outcome.next (writeRw_busy _ hb)

/-- R111, R112: a host write to a guarded register of a busy core. -/
theorem step_hostWr_busy {r : Reg} {off : Nat} (h : StandsAt r off) (hg : r.guarded = true) (v : Word) (es : List Event)
    (hb : s.status.busy = true) (hr : s.resetLine = false) :
    step (s.doing (hostWr off v) es) = .next (reject (s.todo es)) := by
  obtain ⟨rfl, hal, hwin⟩ := h
  exact (stepAt_hostWr v es hr hal hwin).trans (writeReg_busy (s := s.todo es) Config.hw v hg hb)

/-- The offsets below 0x040 of the registers that R112 guards. -/
theorem guarded_lowOffsets : ∀ off ∈ [0x000, 0x008, 0x00C, 0x010, 0x014, 0x018, 0x01C, 0x020, 0x024],
    (regAt Config.hw off).guarded = true ∧ off % 4 = 0 ∧ off < 0x800 := by decide

/-- Settles O13: CMD and the RW registers are guarded; STATUS is written as O16 says, and from offset 0x028 to RX nothing
is. -/
theorem busyWritesAreRefused : Obligations.BusyWritesAreRefused := by
  intro s v es hb hr
  obtain ⟨-, -, -, haccess⟩ := statusWordLayout
  obtain ⟨-, hstatus⟩ := haccess s v es hr
  refine ⟨fun off hoff => ?guarded, hstatus, fun off => step_hostWr_readOnly v es hr⟩
  rcases hoff with hlow | ⟨i, hi, rfl⟩
  · obtain ⟨hg, hal, hwin⟩ := guarded_lowOffsets off hlow
    exact step_hostWr_busy ⟨rfl, hal, hwin⟩ hg v es hb hr
  · exact step_hostWr_busy (standsAt_rx hi) rfl v es hb hr

/-! ### Moves without a meaning -/

/-- R44: the accesses the core does not define, the window being 2 KiB (R42). -/
theorem Access.defined_eq_false_iff {a : Access} :
    a.defined = false ↔ a.bits ≠ 32 ∨ a.off % 4 ≠ 0 ∨ 0x7FF < a.off := by
  rw [Access.defined, decide_eq_false_iff_not, Config.windowSize]
  omega

/-- R113: such an access is refused, whatever the state. -/
theorem hostAccess_undefined {a : Access} (p : Params) (s : State) (ha : a.defined = false) :
    hostAccess p a s = .refused .undefinedAccess := by
  simp [hostAccess, ha]

/-- Settles O17: the step is that access. -/
theorem undefinedAccessIsRefused : Obligations.UndefinedAccessIsRefused :=
  fun s _ es ha => hostAccess_undefined Config.hw (s.todo es) (Access.defined_eq_false_iff.2 ha)

/-- R107: of the agents' moves only the host's three kinds can be refused; every other answers a next state. -/
theorem event_of_perform_refused {e : Event} {r : Refusal} (h : perform p e s = .refused r) :
    (∃ a, e = .access a) ∨ (∃ bits addr kind, e = .bus bits addr kind) ∨ e = .script := by
  cases e with
  | access a => exact .inl ⟨a, rfl⟩
  | bus bits addr kind => exact .inr (.inl ⟨bits, addr, kind, rfl⟩)
  | script => exact .inr (.inr rfl)
  | core | arrive | consume | tick | assertReset | releaseReset => cases h

/-- Settles O51: a step performs the next move. -/
theorem onlyHostMovesAreRefused : Obligations.OnlyHostMovesAreRefused := fun _ _ h => event_of_perform_refused h

/-! ### Commands -/

/-- R74, R109: a command other than XFER has completed when its body has run. -/
theorem bodyOf_completed (p : Params) {i : Instr} (hx : i ≠ .xfer) (s : State) :
    (bodyOf p i s).status.busy = false ∧ (bodyOf p i s).status.done = true := by
  obtain ⟨c, x, v, n, st, hbody, hbusy, hdone, -⟩ := bodyOf_frame p i hx s
  rw [hbody]
  exact ⟨hbusy, hdone⟩

/-- Settles O50: `exec_cases` on the state that `exec_next` gives; an illegal command is reported in the same step (R110),
and XFER has no operand to be illegal. -/
theorem everyCommandAnswersANextState : Obligations.EveryCommandAnswersANextState := by
  intro i s
  obtain ⟨t, ht⟩ := exec_next i s
  refine ⟨t, ht, ?_⟩
  rcases exec_cases ht with ⟨hb, rfl⟩ | ⟨hb, hw, rfl⟩ | ⟨hb, -, rfl⟩
  · exact ⟨fun _ => rfl, by simp [hb], by simp [hb]⟩
  · refine ⟨by simp [hb], fun _ _ => ⟨hb, rfl⟩, fun _ hx => ?xfer⟩
    cases hx
    cases hw
  · refine ⟨by simp [hb], fun _ hx => bodyOf_completed Config.hw hx s, fun _ hx => ?accepted⟩
    cases hx
    exact ⟨rfl, rfl⟩

end Sys2Proof.Machine
end

section
/-! PROOFS. The reset input (spec/70_reset_and_hazards.md R122 to R125): what asserting it leaves, and the first command
after it. -/

namespace Sys2Proof.Machine

variable {s : State}

/-! ### Asserted -/

/-- R122: the reset values of R41 do not depend on the state reset is asserted in. -/
theorem coreReset_assertReset (l : List Byte) (s : State) : CoreReset (assertReset Config.hw l s) := by
  constructor <;> rfl

/-- R122: "Host accesses while reset is asserted are not defined", whether or not R44 defines the access. -/
theorem hostAccess_inReset (p : Params) (a : Access) (hr : s.resetLine = true) : ∃ r, hostAccess p a s = .refused r := by
  cases ha : a.defined with
  | false => exact ⟨_, hostAccess_undefined p s ha⟩
  | true => exact ⟨.accessDuringReset, by simp [hostAccess, ha, hr]⟩

/-- Settles O2: the step is `assertReset`; an access while reset is asserted is refused. -/
theorem assertedResetRestoresTheCore : Obligations.AssertedResetRestoresTheCore := by
  refine ⟨fun s l es => ?asserted, fun s a es hr => hostAccess_inReset (s := s.todo es) Config.hw a hr⟩
  exact ⟨assertReset Config.hw l (s.todo es), rfl, coreReset_assertReset l _, rfl, fun _ => rfl, rfl, rfl, rfl⟩

/-! ### Released -/

/-- R122: a core held in reset is not busy and has refused nothing. -/
theorem Inv.status_inReset (h : Inv s) (hr : s.resetLine = true) : s.status.busy = false ∧ s.status.rejected = false := by
  rw [(h.in_reset hr).status]
  exact ⟨rfl, rfl⟩

theorem step_releaseReset (s : State) (es : List Event) :
    step (s.doing .releaseReset es) = .next (releaseReset (s.todo es)) := rfl

/-- R26: no command that runs writes REJECTED. -/
theorem bodyOf_rejected (p : Params) (i : Instr) (s : State) : (bodyOf p i s).status.rejected = s.status.rejected := by
  rcases eq_or_ne i .xfer with rfl | hx
  · rfl
  · obtain ⟨c, x, v, n, st, hbody, -, -, hrej, -⟩ := bodyOf_frame p i hx s
    rw [hbody, hrej]

/-- Settles O3: the release leaves the core at its reset values, so the write to CMD finds it idle and its command runs. -/
theorem releasedResetRunsTheFirstCommand : Obligations.ReleasedResetRunsTheFirstCommand := by
  intro s i es hinv hr hw
  obtain ⟨hbusy, hrej⟩ := hinv.status_inReset hr
  refine ⟨?first, _, exec_idle_body hw hbusy, ?accepted⟩
  case first =>
    have hwrite : step ((releaseReset s).doing (hostWr 0x000 (encode i)) es) = exec i ((releaseReset s).todo es) :=
      stepRunsTheDecodedCommand (releaseReset s) (encode i) i es (decode_encode hw) hbusy rfl
    obtain ⟨t, ht⟩ := exec_next i ((releaseReset s).todo es)
    calc runFor 2 (s.doing .releaseReset (hostWr 0x000 (encode i) :: es))
      _ = runFor 1 ((releaseReset s).doing (hostWr 0x000 (encode i)) es) := runFor_of_step 1 (step_releaseReset s _)
      _ = runFor 0 t := runFor_of_step 0 (hwrite.trans ht)
      _ = exec i ((releaseReset s).todo es) := ht.symm
  case accepted => exact (bodyOf_rejected ..).trans hrej

end Sys2Proof.Machine
end

section
/-! PROOFS. The CRC-16 generator (spec/40_crc.md R75 to R78): its step on numbers, and the CRC of a byte sequence. -/

namespace Sys2Proof.Machine

/-! ### The step -/

/-- R75: a shift of the accumulator is a shift of its number. -/
theorem crcShift_semiconj : Function.Semiconj BitVec.toNat crcShift crcShiftNat := crcShift_toNat

theorem crc16Step_toNat (c : Half) (b : Byte) : (crc16Step c b).toNat = crcShiftNat^[8] (c.toNat ^^^ b.toNat) := by
  have hstart : (c ^^^ b.setWidth 16).toNat = c.toNat ^^^ b.toNat := by
    rw [BitVec.toNat_xor, BitVec.toNat_setWidth_of_le (by decide)]
  rw [crc16Step, crcShift_semiconj.iterate_right 8, hstart]

/-- Settles O20: `crc16Step_toNat`, the eight shifts written out. -/
theorem crcStepIsEightShifts : Obligations.CrcStepIsEightShifts := crc16Step_toNat

/-! ### A frame's own CRC -/

/-- R75: while zeros are shifted out the polynomial does not enter. -/
theorem crcShiftNat_iterate_of_mod_eq_zero {n x : Nat} (h : x % 2 ^ n = 0) : crcShiftNat^[n] x = x / 2 ^ n := by
  induction n generalizing x with
  | zero => simp
  | succ n ih =>
    obtain ⟨y, rfl⟩ := Nat.dvd_of_mod_eq_zero h
    have heven : 2 ^ (n + 1) * y = 2 * (2 ^ n * y) := by ring
    have hshift : crcShiftNat (2 * (2 ^ n * y)) = 2 ^ n * y := by simp [crcShiftNat]
    rw [Function.iterate_succ_apply, heven, hshift, ih (Nat.mul_mod_right _ _), ← heven,
      Nat.mul_div_cancel_left _ (by positivity), Nat.mul_div_cancel_left _ (by positivity)]

/-- The low byte of the accumulator cancels itself, and eight zeros are shifted out below the high byte. -/
theorem crc16Step_loByte (c : Half) : crc16Step c (loByte c) = (hiByte c).setWidth 16 := by
  have hlo : (loByte c).toNat = c.toNat % 2 ^ 8 := by simp [loByte]
  have hhi : ((hiByte c).setWidth 16).toNat = c.toNat / 2 ^ 8 := by
    rw [hiByte, BitVec.toNat_setWidth_of_le (by decide), BitVec.extractLsb'_toNat, Nat.shiftRight_eq_div_pow]
    omega
  have hmod : (c.toNat ^^^ c.toNat % 2 ^ 8) % 2 ^ 8 = 0 := by
    rw [Nat.xor_mod_two_pow, Nat.mod_mod, Nat.xor_self]
  have hdiv : (c.toNat ^^^ c.toNat % 2 ^ 8) / 2 ^ 8 = c.toNat / 2 ^ 8 := by
    rw [Nat.xor_div_two_pow, Nat.div_eq_of_lt (Nat.mod_lt _ (by decide)), Nat.xor_zero]
  apply BitVec.eq_of_toNat_eq
  rw [crc16Step_toNat, hlo, crcShiftNat_iterate_of_mod_eq_zero hmod, hdiv, hhi]

/-- A byte cancels an accumulator that holds just that byte. -/
theorem crc16Step_setWidth_self (b : Byte) : crc16Step (b.setWidth 16) b = 0x0000#16 := by
  rw [crc16Step, BitVec.xor_self]
  decide

/-- Settles O22: the low byte leaves the high byte in the accumulator, and the high byte then leaves 0. -/
theorem crcOfAFrameWithItsCrcIsZero : Obligations.CrcOfAFrameWithItsCrcIsZero := by
  intro body
  have hframe : withCrc body = (body ++ [loByte (crc16 body)]) ++ [hiByte (crc16 body)] := by simp [withCrc, loByte, hiByte]
  rw [hframe, crc16_append, crc16_append, crc16Step_loByte, crc16Step_setWidth_self]

/-! ### The commands -/

/-- Settles O19: CRC_BYTE is always well formed, so an idle core runs it. -/
theorem crcByteResult : Obligations.CrcByteResult := fun _ _ hb => exec_idle rfl hb

/-- R78: a run of CRC_BYTEs after a completed CRC command folds the step over their bytes. -/
theorem execAll_crcBytes (bs : List Byte) (c : Half) (s : State) :
    execAll (bs.map .crcByte) (complete .ok (writeCrc c s)) = .next (complete .ok (writeCrc (bs.foldl crc16Step c) s)) := by
  induction bs generalizing c with
  | nil => rfl
  | cons b bs ih =>
    have hbyte : exec (.crcByte b) (complete .ok (writeCrc c s)) = .next (complete .ok (writeCrc (crc16Step c b) s)) :=
      crcByteResult _ b rfl
    rw [List.map_cons, execAll, hbyte]
    exact ih (crc16Step c b)

/-- Settles O21: CRC_INIT leaves the initial value, from which `execAll_crcBytes` folds. -/
theorem crcCommandsComputeTheCrc : Obligations.CrcCommandsComputeTheCrc := by
  refine ⟨crc16_nil, crc16_append, fun s bs hb => ?commands⟩
  case commands =>
    have hinit : exec .crcInit s = .next (complete .ok (writeCrc Config.crcInit s)) := exec_idle rfl hb
    rw [execAll, hinit]
    exact execAll_crcBytes bs Config.crcInit s

end Sys2Proof.Machine
end

section
/-! PROOFS. Facts at fixed values: the reset state is legal (spec/10_state.md R41), and words of spec/95_test_vectors.md. -/

namespace Sys2Proof.Machine

/-- Settles O4: the reset state is idle outside reset, its buffers are empty and TX holds the reset zeros. -/
theorem invariantHoldsAtReset : Obligations.InvariantHoldsAtReset := by
  refine ⟨?inv, .inl rfl⟩
  case inv =>
    exact inv_of_idle rfl rfl rfl List.length_replicate (Nat.zero_le _) (Memory.nil_wf _) (Nat.zero_le _) (Nat.zero_le _)

/-- Settles O10: the legal words are the encodings of their commands, which decode to them; OP 0 stands for none. -/
theorem specWordsDecode : Obligations.SpecWordsDecode :=
  ⟨decode_encode (i := .crcInit) rfl, decode_encode (i := .crcByte 0xFF#8) rfl, decode_encode (i := .build) rfl,
    decode_encode (i := .verify) rfl, decode_encode (i := .xfer) rfl, decode_encode (i := .decode 1#8) rfl,
    decode_encode (i := .decode 16#8) rfl, rfl⟩

end Sys2Proof.Machine
end

section
/-! PROOFS. VERIFY accepts what BUILD built, through the host's register window (spec/41_frame_codec.md R80, R82, R89). -/

namespace Sys2Proof.Machine

variable {s t : State}

/-! ### Runs of host writes to an idle core -/

/-- R74: the host submits a well-formed command, whose body neither reads nor writes the moves to come. -/
theorem runs_command {i : Instr} {w : Word} (hi : decode Config.hw w = .ok i) (hb : s.status.busy = false)
    (hr : s.resetLine = false) (hbody : ∀ es, bodyOf Config.hw i (s.todo es) = t.todo es) : Runs s [hostWr 0x000 w] t :=
  runs_single fun es =>
    calc step (s.doing (hostWr 0x000 w) es)
      _ = exec i (s.todo es) := stepRunsTheDecodedCommand s w i es hi hb hr
      _ = .next (bodyOf Config.hw i (s.todo es)) := exec_idle_body (wf_of_decode hi) hb
      _ = .next (t.todo es) := congrArg _ (hbody es)

/-- R35, R47: the host sets RX_LEN to a length RX can hold. -/
theorem runs_hostWr_rxLen {v : Word} (hv : (v.setWidth 9).toNat ≤ 256) (hb : s.status.busy = false)
    (hr : s.resetLine = false) : Runs s [hostWr 0x024 v] { s with rxLen := v.setWidth 9 } :=
  runs_single fun es => (stepAt_hostWr_rxLen (p := Config.hw) v es hb hr).trans (congrArg _ (if_pos hv))

/-- R46, R47: the host writes a byte to RX. -/
theorem runs_hostWr_rx {i : Nat} (b : Byte) (hi : i < 256) (hb : s.status.busy = false) (hr : s.resetLine = false) :
    Runs s [hostWr (0x400 + 4 * i) (b.setWidth 32)] (writeRx i b s) := by
  have hbyte : (b.setWidth 32).extractLsb' 0 8 = b := by
    rw [← BitVec.setWidth_eq_extractLsb' (by decide), BitVec.setWidth_setWidth_of_le _ (by decide), BitVec.setWidth_eq]
  exact runs_single fun es => (step_hostWr_rx _ es hb hr hi).trans (by rw [hbyte]; rfl)

/-- R46, R47: the host writes bytes to RX, one at each index. -/
theorem runs_hostWrs_rx {n : Nat} (hn : n ≤ 256) (f : Fin n → Byte) (is : List (Fin n)) (hb : s.status.busy = false)
    (hr : s.resetLine = false) :
    ∃ m, Runs s (is.map fun i => hostWr (0x400 + 4 * i.val) ((f i).setWidth 32)) { s with rx := m } ∧
      ∀ i ∈ is, rxByte { s with rx := m } i.val = f i := by
  induction is using List.reverseRecOn with
  | nil => exact ⟨s.rx, Runs.nil s, nofun⟩
  | append_singleton is i ih =>
    obtain ⟨m, hruns, hbytes⟩ := ih
    refine ⟨m.write i.val (f i), ?runs, fun j hj => ?bytes⟩
    case runs =>
      rw [List.map_append]
      exact hruns.append (runs_hostWr_rx (s := { s with rx := m }) (f i) (i.isLt.trans_le hn) hb hr)
    case bytes =>
      change rxByte (writeRx i.val (f i) { s with rx := m }) j.val = f j
      by_cases hji : j = i
      · rw [hji, rxByte_writeRx_same]
      · rw [rxByte_writeRx_other _ _ _ _ (Fin.val_ne_of_ne hji)]
        exact hbytes j (by simpa [hji] using hj)

/-! ### The copy and VERIFY -/

/-- R84: the host submits VERIFY with a good frame in RX. -/
theorem runs_verify_good (hlen : 4 ≤ s.rxLen.toNat) (hgood : RxCrcGood s) (hb : s.status.busy = false)
    (hr : s.resetLine = false) :
    ∃ t, Runs s [hostWr 0x000 0x00000004#32] t ∧ t.status.valid = true ∧ t.status.err = .ok := by
  have hbody := verifyBody_good Config.hw hlen hgood
  refine ⟨verifyBody Config.hw s, runs_command (decode_encode (i := .verify) rfl) hb hr fun es => ?todo, ?valid, ?err⟩
  case todo => exact (verifyBody_good (s := s.todo es) Config.hw hlen hgood).trans (congrArg (State.todo · es) hbody).symm
  case valid => rw [hbody]
  case err => rw [hbody]

theorem rxHolds_vector {n : Nat} {v : Vector Byte n} (h : ∀ i : Fin n, rxByte s i.val = v[i]) : RxHolds s v.toList := by
  intro i b hib
  obtain ⟨hlt, rfl⟩ := List.getElem?_eq_some_iff.1 hib
  exact h ⟨i, by simpa using hlt⟩

/-- R80, R84: a frame that ends with its CRC is accepted once the host has copied it to RX and set RX_LEN. -/
theorem runs_copy_verify {v : Vector Byte 8} {body : List Byte} (hv : v.toList = withCrc body)
    (hb : s.status.busy = false) (hr : s.resetLine = false) :
    ∃ t, Runs s ((List.finRange 8).map (fun i => hostWr (0x400 + 4 * i.val) ((v[i]).setWidth 32)) ++
        [hostWr 0x024 8#32, hostWr 0x000 0x00000004#32]) t ∧ t.status.valid = true ∧ t.status.err = .ok := by
  obtain ⟨m, hcopy, hbytes⟩ := runs_hostWrs_rx (by decide) (fun i => v[i]) (List.finRange 8) hb hr
  have hsetLen : Runs { s with rx := m } [hostWr 0x024 8#32] { s with rx := m, rxLen := 8#9 } :=
    runs_hostWr_rxLen (by decide) hb hr
  have hholds : RxHolds { s with rx := m, rxLen := 8#9 } (withCrc body) :=
    hv ▸ rxHolds_vector fun i => hbytes i (List.mem_finRange i)
  have hlen : 8 = body.length + 2 := by simpa [withCrc] using congrArg List.length hv
  obtain ⟨t, hverify, hvalid, herr⟩ := runs_verify_good (show 4 ≤ (8#9).toNat by decide) (hholds.rxCrcGood hlen) hb hr
  exact ⟨t, hcopy.append (hsetLen.cons hverify), hvalid, herr⟩

/-- Settles O45: BUILD leaves an idle core with `withCrc` of the request's header in TX, to which `runs_copy_verify`
applies. -/
theorem verifyAcceptsEveryBuiltFrame : Obligations.VerifyAcceptsEveryBuiltFrame := by
  intro s b es hb hr hexec
  obtain rfl : buildBody s = b := Host.Outcome.next.inj ((exec_idle_body rfl hb).symm.trans hexec)
  have hbuild : Runs s [hostWr 0x000 0x00000003#32] (buildBody s) :=
    runs_command (decode_encode (i := .build) rfl) hb hr fun _ => rfl
  have htx : (buildBody s).tx.toList = withCrc (requestHeader s) := rfl
  obtain ⟨t, hverify, hvalid, herr⟩ := runs_copy_verify (s := buildBody s) htx rfl hr
  exact ⟨t.todo es, hbuild.cons hverify es, hvalid, herr⟩

end Sys2Proof.Machine
end
